-- ==== Sys2Proof/Word.lean ====
section
/-! DEFINITION. The two word types of CORE: bytes (XLEN = 8) and addresses (ALEN = 16), spec/00_scope.md R5, R6. -/

namespace Sys2Proof

/-- A `u8`: register contents, a byte of memory, an operand byte (R5, XLEN). -/
abbrev Byte := BitVec 8

/-- A `u16`: an address or the program counter (R5, ALEN). -/
abbrev Word := BitVec 16

end Sys2Proof
end

