-- ==== Sys2Proof/Operand.lean ====
section
/-! DEFINITION. The addressing modes (spec/30_encoding.md R61, spec/40_addressing_modes.md R80 to R93) and, for each
group of instructions, exactly the operand forms that the opcode matrix pairs it with (R64, R70): a pairing that has no
opcode byte cannot be written down. -/

namespace Sys2Proof

/-- The thirteen mode tags of R61. -/
inductive Mode where
  | imp | acc | imm | zp | zpx | zpy | abs | abx | aby | ind | izx | izy | rel
deriving DecidableEq, Repr

/-- The penalty classes of R68. -/
inductive Penalty where
  | none | cross | branch
deriving DecidableEq, Repr

/-- The modes that name a byte of memory for data (R84 to R89, R91, R92), with their operand bytes assembled as R62 says. -/
inductive AddrForm where
  | zp (z : Byte)
  | zpx (z : Byte)
  | zpy (z : Byte)
  | abs (addr : Word)
  | abx (base : Word)
  | aby (base : Word)
  | izx (z : Byte)
  | izy (z : Byte)
deriving DecidableEq, Repr

/-- What `ReadOperand` can be asked to read by a read instruction: an immediate or a byte of memory (R95). -/
inductive ReadForm where
  | imm (v : Byte)
  | mem (m : AddrForm)
deriving DecidableEq, Repr

/-- What a read-modify-write instruction works on: the accumulator or a byte of memory (R95). -/
inductive RmwForm where
  | acc
  | mem (m : AddrForm)
deriving DecidableEq, Repr

/-- The eight forms of LDA, ADC, SBC, AND, ORA, EOR, CMP (R65). -/
inductive AluOperand where
  | imm (v : Byte)
  | zp (z : Byte)
  | zpx (z : Byte)
  | abs (addr : Word)
  | abx (base : Word)
  | aby (base : Word)
  | izx (z : Byte)
  | izy (z : Byte)
deriving DecidableEq, Repr

/-- The five forms of LDX (R102). -/
inductive LdxOperand where
  | imm (v : Byte)
  | zp (z : Byte)
  | zpy (z : Byte)
  | abs (addr : Word)
  | aby (base : Word)
deriving DecidableEq, Repr

/-- The five forms of LDY (R103). -/
inductive LdyOperand where
  | imm (v : Byte)
  | zp (z : Byte)
  | zpx (z : Byte)
  | abs (addr : Word)
  | abx (base : Word)
deriving DecidableEq, Repr

/-- The seven forms of STA: no immediate (R104). -/
inductive StaOperand where
  | zp (z : Byte)
  | zpx (z : Byte)
  | abs (addr : Word)
  | abx (base : Word)
  | aby (base : Word)
  | izx (z : Byte)
  | izy (z : Byte)
deriving DecidableEq, Repr

/-- The three forms of STX (R105). -/
inductive StxOperand where
  | zp (z : Byte)
  | zpy (z : Byte)
  | abs (addr : Word)
deriving DecidableEq, Repr

/-- The three forms of STY (R106). -/
inductive StyOperand where
  | zp (z : Byte)
  | zpx (z : Byte)
  | abs (addr : Word)
deriving DecidableEq, Repr

/-- The two forms of BIT (R124). -/
inductive BitOperand where
  | zp (z : Byte)
  | abs (addr : Word)
deriving DecidableEq, Repr

/-- The three forms of CPX and CPY (R203, R204). -/
inductive CmpOperand where
  | imm (v : Byte)
  | zp (z : Byte)
  | abs (addr : Word)
deriving DecidableEq, Repr

/-- The five forms of ASL, LSR, ROL, ROR (R131 to R134). -/
inductive ShiftOperand where
  | acc
  | zp (z : Byte)
  | zpx (z : Byte)
  | abs (addr : Word)
  | abx (base : Word)
deriving DecidableEq, Repr

/-- The four forms of INC and DEC (R205, R206). -/
inductive IncOperand where
  | zp (z : Byte)
  | zpx (z : Byte)
  | abs (addr : Word)
  | abx (base : Word)
deriving DecidableEq, Repr

/-- The two forms of JMP: absolute and indirect (R155, R156). -/
inductive JmpOperand where
  | abs (target : Word)
  | ind (ptr : Word)
deriving DecidableEq, Repr

end Sys2Proof
end

