-- ==== Sys2Proof/Syntax.lean ====
section
/-! DEFINITION. The instructions: one constructor per mnemonic of spec/opcode_table.json, in the order of the families of
spec/41 to spec/49, with the operand forms its rows give it (spec/30_encoding.md R64, R65, R70; notes/assumptions/11.md). -/

namespace Sys2Proof

/-- The 56 documented mnemonics (R65) and `ill`, the 105 illegal opcode bytes (R66). -/
inductive Instr where
  -- 41_load_store.md
  | lda (o : AluOperand)
  | ldx (o : LdxOperand)
  | ldy (o : LdyOperand)
  | sta (o : StaOperand)
  | stx (o : StxOperand)
  | sty (o : StyOperand)
  -- 42_arithmetic.md
  | adc (o : AluOperand)
  | sbc (o : AluOperand)
  -- 43_logical.md
  | and (o : AluOperand)
  | ora (o : AluOperand)
  | eor (o : AluOperand)
  | bit (o : BitOperand)
  -- 44_shift_rotate.md
  | asl (o : ShiftOperand)
  | lsr (o : ShiftOperand)
  | rol (o : ShiftOperand)
  | ror (o : ShiftOperand)
  -- 45_branch.md: `d` is the displacement byte rel8 (R62)
  | bpl (d : Byte)
  | bmi (d : Byte)
  | bvc (d : Byte)
  | bvs (d : Byte)
  | bcc (d : Byte)
  | bcs (d : Byte)
  | bne (d : Byte)
  | beq (d : Byte)
  -- 46_jump_call.md
  | jmp (o : JmpOperand)
  | jsr (target : Word)
  | rts
  -- 47_stack.md
  | pha
  | pla
  | php
  | plp
  | tsx
  | txs
  -- 48_flag_system.md: `b` is the illegal opcode byte itself
  | clc
  | sec
  | cli
  | sei
  | cld
  | sed
  | clv
  | nop
  | brk
  | ill (b : Byte)
  -- 49_supplied_instructions.md
  | cmp (o : AluOperand)
  | cpx (o : CmpOperand)
  | cpy (o : CmpOperand)
  | inc (o : IncOperand)
  | dec (o : IncOperand)
  | inx
  | iny
  | dex
  | dey
  | tax
  | tay
  | txa
  | tya
  | rti
deriving DecidableEq, Repr

end Sys2Proof
end

