-- ==== Sys2Proof/Decode.lean ====
section
/-! DEFINITION. The decoder over bytes (spec/30_encoding.md R60 to R66) and, after it, the encoder (R61, R62, R65). The
decoder's table is the matrix of R64; the encoder's opcode bytes are the list by mnemonic of R65: two tables of the spec
that a round trip holds against each other. -/

namespace Sys2Proof

/-! ### Byte order (R43, R62) -/

/-- `{hi, lo}` of R6: the 16-bit value whose high byte is `hi`. -/
def joinBytes (hi lo : Byte) : Word := hi ++ lo

/-- Bits 15 to 8 of a 16-bit value; for an address, its page (R6). -/
def hiByte (w : Word) : Byte := w.extractLsb' 8 8

/-- Bits 7 to 0 of a 16-bit value. -/
def loByte (w : Word) : Byte := w.extractLsb' 0 8

/-! ### The decoder -/

/-- What the opcode byte alone settles: the operation, the mode and so the number of operand bytes (R60, R61). -/
inductive Layout where
  | bare (i : Instr)                -- IMP, ACC: no operand byte
  | byteArg (f : Byte → Instr)      -- IMM, ZP, ZPX, ZPY, IZX, IZY, REL: one operand byte
  | wordArg (f : Word → Instr)      -- ABS, ABX, ABY, IND: two operand bytes, low byte first

/-- A filled cell of R64 of length 1. -/
def oneByte (i : Instr) : Option Layout := some (.bare i)

/-- A filled cell of R64 of length 2. -/
def twoBytes (f : Byte → Instr) : Option Layout := some (.byteArg f)

/-- A filled cell of R64 of length 3. -/
def threeBytes (f : Word → Instr) : Option Layout := some (.wordArg f)

/-- Row 0x of R64. -/
def matrixRow0 : List (Option Layout) :=
  [ oneByte .brk, twoBytes fun z => .ora (.izx z), none, none,
    none, twoBytes fun z => .ora (.zp z), twoBytes fun z => .asl (.zp z), none,
    oneByte .php, twoBytes fun v => .ora (.imm v), oneByte (.asl .acc), none,
    none, threeBytes fun w => .ora (.abs w), threeBytes fun w => .asl (.abs w), none ]

/-- Row 1x of R64. -/
def matrixRow1 : List (Option Layout) :=
  [ twoBytes fun d => .bpl d, twoBytes fun z => .ora (.izy z), none, none,
    none, twoBytes fun z => .ora (.zpx z), twoBytes fun z => .asl (.zpx z), none,
    oneByte .clc, threeBytes fun w => .ora (.aby w), none, none,
    none, threeBytes fun w => .ora (.abx w), threeBytes fun w => .asl (.abx w), none ]

/-- Row 2x of R64. -/
def matrixRow2 : List (Option Layout) :=
  [ threeBytes fun t => .jsr t, twoBytes fun z => .and (.izx z), none, none,
    twoBytes fun z => .bit (.zp z), twoBytes fun z => .and (.zp z), twoBytes fun z => .rol (.zp z), none,
    oneByte .plp, twoBytes fun v => .and (.imm v), oneByte (.rol .acc), none,
    threeBytes fun w => .bit (.abs w), threeBytes fun w => .and (.abs w), threeBytes fun w => .rol (.abs w), none ]

/-- Row 3x of R64. -/
def matrixRow3 : List (Option Layout) :=
  [ twoBytes fun d => .bmi d, twoBytes fun z => .and (.izy z), none, none,
    none, twoBytes fun z => .and (.zpx z), twoBytes fun z => .rol (.zpx z), none,
    oneByte .sec, threeBytes fun w => .and (.aby w), none, none,
    none, threeBytes fun w => .and (.abx w), threeBytes fun w => .rol (.abx w), none ]

/-- Row 4x of R64. -/
def matrixRow4 : List (Option Layout) :=
  [ oneByte .rti, twoBytes fun z => .eor (.izx z), none, none,
    none, twoBytes fun z => .eor (.zp z), twoBytes fun z => .lsr (.zp z), none,
    oneByte .pha, twoBytes fun v => .eor (.imm v), oneByte (.lsr .acc), none,
    threeBytes fun w => .jmp (.abs w), threeBytes fun w => .eor (.abs w), threeBytes fun w => .lsr (.abs w), none ]

/-- Row 5x of R64. -/
def matrixRow5 : List (Option Layout) :=
  [ twoBytes fun d => .bvc d, twoBytes fun z => .eor (.izy z), none, none,
    none, twoBytes fun z => .eor (.zpx z), twoBytes fun z => .lsr (.zpx z), none,
    oneByte .cli, threeBytes fun w => .eor (.aby w), none, none,
    none, threeBytes fun w => .eor (.abx w), threeBytes fun w => .lsr (.abx w), none ]

/-- Row 6x of R64. -/
def matrixRow6 : List (Option Layout) :=
  [ oneByte .rts, twoBytes fun z => .adc (.izx z), none, none,
    none, twoBytes fun z => .adc (.zp z), twoBytes fun z => .ror (.zp z), none,
    oneByte .pla, twoBytes fun v => .adc (.imm v), oneByte (.ror .acc), none,
    threeBytes fun w => .jmp (.ind w), threeBytes fun w => .adc (.abs w), threeBytes fun w => .ror (.abs w), none ]

/-- Row 7x of R64. -/
def matrixRow7 : List (Option Layout) :=
  [ twoBytes fun d => .bvs d, twoBytes fun z => .adc (.izy z), none, none,
    none, twoBytes fun z => .adc (.zpx z), twoBytes fun z => .ror (.zpx z), none,
    oneByte .sei, threeBytes fun w => .adc (.aby w), none, none,
    none, threeBytes fun w => .adc (.abx w), threeBytes fun w => .ror (.abx w), none ]

/-- Row 8x of R64. -/
def matrixRow8 : List (Option Layout) :=
  [ none, twoBytes fun z => .sta (.izx z), none, none,
    twoBytes fun z => .sty (.zp z), twoBytes fun z => .sta (.zp z), twoBytes fun z => .stx (.zp z), none,
    oneByte .dey, none, oneByte .txa, none,
    threeBytes fun w => .sty (.abs w), threeBytes fun w => .sta (.abs w), threeBytes fun w => .stx (.abs w), none ]

/-- Row 9x of R64. -/
def matrixRow9 : List (Option Layout) :=
  [ twoBytes fun d => .bcc d, twoBytes fun z => .sta (.izy z), none, none,
    twoBytes fun z => .sty (.zpx z), twoBytes fun z => .sta (.zpx z), twoBytes fun z => .stx (.zpy z), none,
    oneByte .tya, threeBytes fun w => .sta (.aby w), oneByte .txs, none,
    none, threeBytes fun w => .sta (.abx w), none, none ]

/-- Row Ax of R64. -/
def matrixRowA : List (Option Layout) :=
  [ twoBytes fun v => .ldy (.imm v), twoBytes fun z => .lda (.izx z), twoBytes fun v => .ldx (.imm v), none,
    twoBytes fun z => .ldy (.zp z), twoBytes fun z => .lda (.zp z), twoBytes fun z => .ldx (.zp z), none,
    oneByte .tay, twoBytes fun v => .lda (.imm v), oneByte .tax, none,
    threeBytes fun w => .ldy (.abs w), threeBytes fun w => .lda (.abs w), threeBytes fun w => .ldx (.abs w), none ]

/-- Row Bx of R64. -/
def matrixRowB : List (Option Layout) :=
  [ twoBytes fun d => .bcs d, twoBytes fun z => .lda (.izy z), none, none,
    twoBytes fun z => .ldy (.zpx z), twoBytes fun z => .lda (.zpx z), twoBytes fun z => .ldx (.zpy z), none,
    oneByte .clv, threeBytes fun w => .lda (.aby w), oneByte .tsx, none,
    threeBytes fun w => .ldy (.abx w), threeBytes fun w => .lda (.abx w), threeBytes fun w => .ldx (.aby w), none ]

/-- Row Cx of R64. -/
def matrixRowC : List (Option Layout) :=
  [ twoBytes fun v => .cpy (.imm v), twoBytes fun z => .cmp (.izx z), none, none,
    twoBytes fun z => .cpy (.zp z), twoBytes fun z => .cmp (.zp z), twoBytes fun z => .dec (.zp z), none,
    oneByte .iny, twoBytes fun v => .cmp (.imm v), oneByte .dex, none,
    threeBytes fun w => .cpy (.abs w), threeBytes fun w => .cmp (.abs w), threeBytes fun w => .dec (.abs w), none ]

/-- Row Dx of R64. -/
def matrixRowD : List (Option Layout) :=
  [ twoBytes fun d => .bne d, twoBytes fun z => .cmp (.izy z), none, none,
    none, twoBytes fun z => .cmp (.zpx z), twoBytes fun z => .dec (.zpx z), none,
    oneByte .cld, threeBytes fun w => .cmp (.aby w), none, none,
    none, threeBytes fun w => .cmp (.abx w), threeBytes fun w => .dec (.abx w), none ]

/-- Row Ex of R64. -/
def matrixRowE : List (Option Layout) :=
  [ twoBytes fun v => .cpx (.imm v), twoBytes fun z => .sbc (.izx z), none, none,
    twoBytes fun z => .cpx (.zp z), twoBytes fun z => .sbc (.zp z), twoBytes fun z => .inc (.zp z), none,
    oneByte .inx, twoBytes fun v => .sbc (.imm v), oneByte .nop, none,
    threeBytes fun w => .cpx (.abs w), threeBytes fun w => .sbc (.abs w), threeBytes fun w => .inc (.abs w), none ]

/-- Row Fx of R64. -/
def matrixRowF : List (Option Layout) :=
  [ twoBytes fun d => .beq d, twoBytes fun z => .sbc (.izy z), none, none,
    none, twoBytes fun z => .sbc (.zpx z), twoBytes fun z => .inc (.zpx z), none,
    oneByte .sed, threeBytes fun w => .sbc (.aby w), none, none,
    none, threeBytes fun w => .sbc (.abx w), threeBytes fun w => .inc (.abx w), none ]

/-- The opcode matrix of R64: the row is the high nibble of the opcode byte, the column the low one; `none` is a `-`. -/
def matrix : List (List (Option Layout)) :=
  [ matrixRow0, matrixRow1, matrixRow2, matrixRow3, matrixRow4, matrixRow5, matrixRow6, matrixRow7,
    matrixRow8, matrixRow9, matrixRowA, matrixRowB, matrixRowC, matrixRowD, matrixRowE, matrixRowF ]

/-- The cell of R64 of an opcode byte. -/
def cellOf (b0 : Byte) : Option Layout := (matrix.getD (b0.toNat / 16) []).getD (b0.toNat % 16) none

/-- `Decode` of R63 on the opcode byte: total, an empty cell being the illegal opcode `ill b0` of length 1 (R66). -/
def layoutOf (b0 : Byte) : Layout := (cellOf b0).getD (.bare (.ill b0))

/-- Why a list of bytes is no instruction: it ends too soon. No opcode byte is refused (R63). -/
inductive DecodeError where
  | noOpcode
  | missingOperand (b0 : Byte)
deriving DecidableEq, Repr

/-- The instruction at the head of a list of bytes, and the bytes after it (R60 to R63). -/
def decode : List Byte → Except DecodeError (Instr × List Byte)
  | [] => .error .noOpcode
  | b0 :: bs =>
    match layoutOf b0, bs with
    | .bare i, rest => .ok (i, rest)
    | .byteArg f, b1 :: rest => .ok (f b1, rest)
    | .wordArg f, lo :: hi :: rest => .ok (f (joinBytes hi lo), rest)
    | .byteArg _, [] => .error (.missingOperand b0)
    | .wordArg _, [] => .error (.missingOperand b0)
    | .wordArg _, [_] => .error (.missingOperand b0)

/-- Byte `k` of an instruction whose bits are `w`, bit 0 the least significant bit of the first byte, with every bit from
`nbits` on zero. -/
def tableByte (nbits w k : Nat) : Byte := BitVec.ofNat 8 (w % 2 ^ nbits / 256 ^ k)

/-- The three bytes, the longest instruction of R60, that `w` stands for. -/
def tableBytes (nbits w : Nat) : List Byte := [tableByte nbits w 0, tableByte nbits w 1, tableByte nbits w 2]

/-- What the decoder reads from an instruction given as the opcode table numbers its bits. -/
def decodeTableWord (nbits w : Nat) : Option Instr :=
  match decode (tableBytes nbits w) with
  | .ok (i, _) => some i
  | .error _ => none

/-! ### Operand forms as one type -/

/-- An instruction's operand with its mode: the columns byte 1 and byte 2 of R61. -/
inductive Operand where
  | imp
  | acc
  | imm (v : Byte)
  | zp (z : Byte)
  | zpx (z : Byte)
  | zpy (z : Byte)
  | abs (addr : Word)
  | abx (base : Word)
  | aby (base : Word)
  | ind (ptr : Word)
  | izx (z : Byte)
  | izy (z : Byte)
  | rel (d : Byte)
deriving DecidableEq, Repr

def Operand.mode : Operand → Mode
  | .imp => .imp
  | .acc => .acc
  | .imm _ => .imm
  | .zp _ => .zp
  | .zpx _ => .zpx
  | .zpy _ => .zpy
  | .abs _ => .abs
  | .abx _ => .abx
  | .aby _ => .aby
  | .ind _ => .ind
  | .izx _ => .izx
  | .izy _ => .izy
  | .rel _ => .rel

/-- The operand bytes in ascending address order: low byte first (R61, R62). -/
def Operand.bytes : Operand → List Byte
  | .imp | .acc => []
  | .imm b | .zp b | .zpx b | .zpy b | .izx b | .izy b | .rel b => [b]
  | .abs w | .abx w | .aby w | .ind w => [loByte w, hiByte w]

/-- The length column of R61. -/
def modeLength : Mode → Nat
  | .imp | .acc => 1
  | .imm | .zp | .zpx | .zpy | .izx | .izy | .rel => 2
  | .abs | .abx | .aby | .ind => 3

def AluOperand.form : AluOperand → Operand
  | .imm v => .imm v
  | .zp z => .zp z
  | .zpx z => .zpx z
  | .abs w => .abs w
  | .abx w => .abx w
  | .aby w => .aby w
  | .izx z => .izx z
  | .izy z => .izy z

def LdxOperand.form : LdxOperand → Operand
  | .imm v => .imm v
  | .zp z => .zp z
  | .zpy z => .zpy z
  | .abs w => .abs w
  | .aby w => .aby w

def LdyOperand.form : LdyOperand → Operand
  | .imm v => .imm v
  | .zp z => .zp z
  | .zpx z => .zpx z
  | .abs w => .abs w
  | .abx w => .abx w

def StaOperand.form : StaOperand → Operand
  | .zp z => .zp z
  | .zpx z => .zpx z
  | .abs w => .abs w
  | .abx w => .abx w
  | .aby w => .aby w
  | .izx z => .izx z
  | .izy z => .izy z

def StxOperand.form : StxOperand → Operand
  | .zp z => .zp z
  | .zpy z => .zpy z
  | .abs w => .abs w

def StyOperand.form : StyOperand → Operand
  | .zp z => .zp z
  | .zpx z => .zpx z
  | .abs w => .abs w

def BitOperand.form : BitOperand → Operand
  | .zp z => .zp z
  | .abs w => .abs w

def CmpOperand.form : CmpOperand → Operand
  | .imm v => .imm v
  | .zp z => .zp z
  | .abs w => .abs w

def ShiftOperand.form : ShiftOperand → Operand
  | .acc => .acc
  | .zp z => .zp z
  | .zpx z => .zpx z
  | .abs w => .abs w
  | .abx w => .abx w

def IncOperand.form : IncOperand → Operand
  | .zp z => .zp z
  | .zpx z => .zpx z
  | .abs w => .abs w
  | .abx w => .abx w

def JmpOperand.form : JmpOperand → Operand
  | .abs w => .abs w
  | .ind w => .ind w

/-- The operand of an instruction, with its mode (R64). -/
def operandOf : Instr → Operand
  | .lda o => o.form
  | .ldx o => o.form
  | .ldy o => o.form
  | .sta o => o.form
  | .stx o => o.form
  | .sty o => o.form
  | .adc o => o.form
  | .sbc o => o.form
  | .and o => o.form
  | .ora o => o.form
  | .eor o => o.form
  | .bit o => o.form
  | .asl o => o.form
  | .lsr o => o.form
  | .rol o => o.form
  | .ror o => o.form
  | .bpl d => .rel d
  | .bmi d => .rel d
  | .bvc d => .rel d
  | .bvs d => .rel d
  | .bcc d => .rel d
  | .bcs d => .rel d
  | .bne d => .rel d
  | .beq d => .rel d
  | .jmp o => o.form
  | .jsr t => .abs t
  | .rts => .imp
  | .pha => .imp
  | .pla => .imp
  | .php => .imp
  | .plp => .imp
  | .tsx => .imp
  | .txs => .imp
  | .clc => .imp
  | .sec => .imp
  | .cli => .imp
  | .sei => .imp
  | .cld => .imp
  | .sed => .imp
  | .clv => .imp
  | .nop => .imp
  | .brk => .imp
  | .ill _ => .imp
  | .cmp o => o.form
  | .cpx o => o.form
  | .cpy o => o.form
  | .inc o => o.form
  | .dec o => o.form
  | .inx => .imp
  | .iny => .imp
  | .dex => .imp
  | .dey => .imp
  | .tax => .imp
  | .tay => .imp
  | .txa => .imp
  | .tya => .imp
  | .rti => .imp

/-! ### The encoder -/

/-- The opcode byte of the form, the bytes listed in the order of the constructors of AluOperand. -/
def AluOperand.pick (o : AluOperand) (imm_ zp_ zpx_ abs_ abx_ aby_ izx_ izy_ : Byte) : Byte :=
  match o with
  | .imm _ => imm_
  | .zp _ => zp_
  | .zpx _ => zpx_
  | .abs _ => abs_
  | .abx _ => abx_
  | .aby _ => aby_
  | .izx _ => izx_
  | .izy _ => izy_

/-- The opcode byte of the form, the bytes listed in the order of the constructors of LdxOperand. -/
def LdxOperand.pick (o : LdxOperand) (imm_ zp_ zpy_ abs_ aby_ : Byte) : Byte :=
  match o with
  | .imm _ => imm_
  | .zp _ => zp_
  | .zpy _ => zpy_
  | .abs _ => abs_
  | .aby _ => aby_

/-- The opcode byte of the form, the bytes listed in the order of the constructors of LdyOperand. -/
def LdyOperand.pick (o : LdyOperand) (imm_ zp_ zpx_ abs_ abx_ : Byte) : Byte :=
  match o with
  | .imm _ => imm_
  | .zp _ => zp_
  | .zpx _ => zpx_
  | .abs _ => abs_
  | .abx _ => abx_

/-- The opcode byte of the form, the bytes listed in the order of the constructors of StaOperand. -/
def StaOperand.pick (o : StaOperand) (zp_ zpx_ abs_ abx_ aby_ izx_ izy_ : Byte) : Byte :=
  match o with
  | .zp _ => zp_
  | .zpx _ => zpx_
  | .abs _ => abs_
  | .abx _ => abx_
  | .aby _ => aby_
  | .izx _ => izx_
  | .izy _ => izy_

/-- The opcode byte of the form, the bytes listed in the order of the constructors of StxOperand. -/
def StxOperand.pick (o : StxOperand) (zp_ zpy_ abs_ : Byte) : Byte :=
  match o with
  | .zp _ => zp_
  | .zpy _ => zpy_
  | .abs _ => abs_

/-- The opcode byte of the form, the bytes listed in the order of the constructors of StyOperand. -/
def StyOperand.pick (o : StyOperand) (zp_ zpx_ abs_ : Byte) : Byte :=
  match o with
  | .zp _ => zp_
  | .zpx _ => zpx_
  | .abs _ => abs_

/-- The opcode byte of the form, the bytes listed in the order of the constructors of BitOperand. -/
def BitOperand.pick (o : BitOperand) (zp_ abs_ : Byte) : Byte :=
  match o with
  | .zp _ => zp_
  | .abs _ => abs_

/-- The opcode byte of the form, the bytes listed in the order of the constructors of CmpOperand. -/
def CmpOperand.pick (o : CmpOperand) (imm_ zp_ abs_ : Byte) : Byte :=
  match o with
  | .imm _ => imm_
  | .zp _ => zp_
  | .abs _ => abs_

/-- The opcode byte of the form, the bytes listed in the order of the constructors of ShiftOperand. -/
def ShiftOperand.pick (o : ShiftOperand) (acc_ zp_ zpx_ abs_ abx_ : Byte) : Byte :=
  match o with
  | .acc => acc_
  | .zp _ => zp_
  | .zpx _ => zpx_
  | .abs _ => abs_
  | .abx _ => abx_

/-- The opcode byte of the form, the bytes listed in the order of the constructors of IncOperand. -/
def IncOperand.pick (o : IncOperand) (zp_ zpx_ abs_ abx_ : Byte) : Byte :=
  match o with
  | .zp _ => zp_
  | .zpx _ => zpx_
  | .abs _ => abs_
  | .abx _ => abx_

/-- The opcode byte of the form, the bytes listed in the order of the constructors of JmpOperand. -/
def JmpOperand.pick (o : JmpOperand) (abs_ ind_ : Byte) : Byte :=
  match o with
  | .abs _ => abs_
  | .ind _ => ind_

/-- The opcode byte of an instruction: the column "opcodes by mode" of R65; of `ill b`, `b` itself (R66). -/
def opcodeOf : Instr → Byte
  | .lda o => o.pick 0xA9 0xA5 0xB5 0xAD 0xBD 0xB9 0xA1 0xB1
  | .ldx o => o.pick 0xA2 0xA6 0xB6 0xAE 0xBE
  | .ldy o => o.pick 0xA0 0xA4 0xB4 0xAC 0xBC
  | .sta o => o.pick 0x85 0x95 0x8D 0x9D 0x99 0x81 0x91
  | .stx o => o.pick 0x86 0x96 0x8E
  | .sty o => o.pick 0x84 0x94 0x8C
  | .adc o => o.pick 0x69 0x65 0x75 0x6D 0x7D 0x79 0x61 0x71
  | .sbc o => o.pick 0xE9 0xE5 0xF5 0xED 0xFD 0xF9 0xE1 0xF1
  | .and o => o.pick 0x29 0x25 0x35 0x2D 0x3D 0x39 0x21 0x31
  | .ora o => o.pick 0x09 0x05 0x15 0x0D 0x1D 0x19 0x01 0x11
  | .eor o => o.pick 0x49 0x45 0x55 0x4D 0x5D 0x59 0x41 0x51
  | .bit o => o.pick 0x24 0x2C
  | .asl o => o.pick 0x0A 0x06 0x16 0x0E 0x1E
  | .lsr o => o.pick 0x4A 0x46 0x56 0x4E 0x5E
  | .rol o => o.pick 0x2A 0x26 0x36 0x2E 0x3E
  | .ror o => o.pick 0x6A 0x66 0x76 0x6E 0x7E
  | .bpl _ => 0x10
  | .bmi _ => 0x30
  | .bvc _ => 0x50
  | .bvs _ => 0x70
  | .bcc _ => 0x90
  | .bcs _ => 0xB0
  | .bne _ => 0xD0
  | .beq _ => 0xF0
  | .jmp o => o.pick 0x4C 0x6C
  | .jsr _ => 0x20
  | .rts => 0x60
  | .pha => 0x48
  | .pla => 0x68
  | .php => 0x08
  | .plp => 0x28
  | .tsx => 0xBA
  | .txs => 0x9A
  | .clc => 0x18
  | .sec => 0x38
  | .cli => 0x58
  | .sei => 0x78
  | .cld => 0xD8
  | .sed => 0xF8
  | .clv => 0xB8
  | .nop => 0xEA
  | .brk => 0x00
  | .ill b => b
  | .cmp o => o.pick 0xC9 0xC5 0xD5 0xCD 0xDD 0xD9 0xC1 0xD1
  | .cpx o => o.pick 0xE0 0xE4 0xEC
  | .cpy o => o.pick 0xC0 0xC4 0xCC
  | .inc o => o.pick 0xE6 0xF6 0xEE 0xFE
  | .dec o => o.pick 0xC6 0xD6 0xCE 0xDE
  | .inx => 0xE8
  | .iny => 0xC8
  | .dex => 0xCA
  | .dey => 0x88
  | .tax => 0xAA
  | .tay => 0xA8
  | .txa => 0x8A
  | .tya => 0x98
  | .rti => 0x40

/-- The addressing mode of an instruction, the tag its row of the opcode table has (R63, R64). -/
def modeOf (i : Instr) : Mode := (operandOf i).mode

/-- The bytes of an instruction: the opcode byte, then the operand bytes (R60, R61). -/
def encode (i : Instr) : List Byte := opcodeOf i :: (operandOf i).bytes

end Sys2Proof
end

