-- ==== Sys2Proof/Config.lean ====
section
/-! DEFINITION. The parameters of CORE (spec/00_scope.md R5, spec/92_eei_decisions.md): what the machine's maker fixes and
no step changes, and the OPEN values, which have no body here so that no proof can use one. The base cycle counts, also a
parameter of R5, are the table of Machine/Cycles.lean. -/

namespace Sys2Proof

/-- What the 105 undocumented opcode bytes do (R5, R66). -/
inductive IllegalPolicy where
  | halt   -- R197
  | nop    -- R198
deriving DecidableEq, Repr

/-- What a device does when CORE accesses an address of its own, besides the byte it gives (R9, R41, R50, R55): the new
device state, the level it drives `irq_line` to (`none`: it leaves the line), and whether it sets `nmi_pending`. -/
structure Reaction where
  device : Nat
  irq : Option Bool
  nmi : Bool
deriving DecidableEq, Repr, Inhabited

namespace Config

/-- STACK_PAGE, the high byte of every stack address (R5, R16, D1). -/
def stackPage : Byte := 0x01

/-- SP_RESET: OPEN in the spec, recommended 0xFD (R5, D2). DESIGN CHOICE, unsafe: notes/assumptions/2.md. -/
def spReset : Byte := 0xFD

/-- A_RESET (R5, D3; notes/assumptions/3.md). -/
def aReset : Byte := 0x00

/-- X_RESET (R5, D3; notes/assumptions/3.md). -/
def xReset : Byte := 0x00

/-- Y_RESET (R5, D3; notes/assumptions/3.md). -/
def yReset : Byte := 0x00

/-- VEC_NMI: the low byte's address; the high byte is at the next address (R5, R46). -/
def vecNmi : Word := 0xFFFA

/-- VEC_RESET (R5, R46). -/
def vecReset : Word := 0xFFFC

/-- VEC_IRQ, shared by IRQ and BRK (R5, R46). -/
def vecIrq : Word := 0xFFFE

/-- INT_CYCLES, of one NMI or IRQ service sequence (R5, R246, D10). -/
def intCycles : Nat := 7

/-- RESET_CYCLES, of one reset sequence (R5, R246, D10). -/
def resetCycles : Nat := 7

/-- ILLEGAL_POLICY: the spec decides `halt` (R66, D6; notes/assumptions/5.md). -/
def illegalPolicy : IllegalPolicy := .halt

/-- ILLEGAL_LEN(b) less one, so 0, 1 or 2: how many operand bytes the `nop` policy skips after the opcode byte `b`. OPEN in
the spec, without a recommended value (R198, D40); a free value: notes/assumptions/5.md. -/
opaque illegalSkip : Byte → Fin 3

/-- ILLEGAL_CYCLES(b) under the `nop` policy. OPEN, without a recommended value (R198, D40); a free value:
notes/assumptions/5.md. -/
opaque illegalCycles : Byte → Nat

/-- `Bus.read` of R5 and R41 at a device's address: the byte and the device's reaction, from its state. The host supplies
it: a free value, without a body (notes/assumptions/16.md). -/
opaque deviceRead : Nat → Word → Byte × Reaction

/-- `Bus.write` of R5 and R41 at a device's address: the device's reaction to a byte. A free value, like `deviceRead`
(notes/assumptions/16.md). -/
opaque deviceWrite : Nat → Word → Byte → Reaction

/-- What an address of the flat RAM that nothing has written reads as: the reference bus holds 0x00 everywhere (R54, D29).
DESIGN CHOICE, unsafe: notes/assumptions/4.md. -/
def unlisted : Byte := 0x00

end Config
end Sys2Proof
end

