-- ==== Sys2Proof/Machine/State.lean ====
section
/-! DEFINITION. The state of CORE (spec/10_state.md R10), with the inputs and outputs of a `Step` that a step of one argument
needs as data (spec/00_scope.md R7), the reasons a step can stop, and the state right after reset (R39). -/

namespace Sys2Proof.Machine

/-- The seven one-bit conditions of `status_flag_register` (R18). -/
structure Flags where
  c : Bool   -- Carry, R19
  z : Bool   -- Zero, R20
  i : Bool   -- Interrupt-Disable, R21
  d : Bool   -- Decimal, R22
  b : Bool   -- Break, stored and inert, R23
  v : Bool   -- Overflow, R24
  n : Bool   -- Negative, R25
deriving DecidableEq, Repr

/-- One access of the bus: every one moves one byte (spec/20_memory.md R41, R44). -/
inductive BusAccess where
  | read (addr : Word) (v : Byte)
  | write (addr : Word) (v : Byte)
deriving DecidableEq, Repr

/-- The contents of the flat RAM of R54: cells by strictly rising address, none of them equal to `Config.unlisted`, which is
what an address without a cell reads as (`Memory.wf`; notes/assumptions/4.md). -/
abbrev Memory := List Host.Cell

/-- The addresses `first` to `last`, behind which the host has composed a device (R40; notes/assumptions/16.md). -/
structure Window where
  first : Nat
  last : Nat
deriving DecidableEq, Repr

/-- The state. `pc` to `halted` are the state of CORE, all of it (R10); `irqLine`, `mem`, `windows` and `device` are what lies
outside CORE and a `Step` meets (R31, R36, R40, R41); `busLog` and `cycles` are what the last `Step` gave back (R7, R47,
R68). The bus of R41 is RAM at the addresses outside `windows`, and the device in state `device` at those inside; one window
over all 65536 addresses is a bus of any kind (notes/assumptions/16.md). -/
@[ext]
structure State where
  pc : Word             -- R14
  sp : Byte             -- R16
  a : Byte              -- R11
  x : Byte              -- R12
  y : Byte              -- R13
  flags : Flags         -- R18
  nmiPending : Bool     -- R30
  resPending : Bool     -- R32
  halted : Bool         -- R33
  irqLine : Bool        -- R31: the level the step samples; CORE never writes it, a device may (notes/assumptions/7.md)
  mem : Memory          -- R40, R54
  windows : List Window -- R40: where the devices are; no step writes it
  device : Nat          -- R41: the device state, all devices together, coded as a number
  busLog : List BusAccess   -- the accesses of the last Step, oldest first (notes/assumptions/8.md)
  cycles : Nat          -- the count the last Step returned, R248 (notes/assumptions/8.md)
deriving DecidableEq, Repr

/-- Why a step stops with a fault: never. No access can fault (spec/20_memory.md R42), there is no alignment, privilege or
arithmetic fault (spec/60_exceptions.md R230, R247), "the step operation never fails for a valid program counter" and every
16-bit value is one (R248), and a halted core's step is defined (R249). So the type has no constructor; that a halted core
is a fault outcome, never a final one, is `Safety.Faulted` (notes/assumptions/6.md). -/
inductive Fault
deriving DecidableEq, Repr

/-- Why a step gives an instruction no meaning. -/
inductive Refusal where
  /-- Raised only by an arm of `exec` for an instruction without a meaning; no arm of this model raises it. Safe: it stops
  where the hardware goes on. -/
  | notModelled (mnemonic : String)
deriving DecidableEq, Repr

/-- What `exec` and every meaning answer. -/
abbrev Result := Host.Outcome State Fault Refusal

/-- The state right after the first reset sequence (R39, R270, R271) of a machine whose bus lists nothing: the two vector
bytes read as `Config.unlisted`, so PC is 0x0000, and there is no device; `nmiPending` is what construction left (R39, D19,
D20). It is the state that sequence's `Step` leaves, with its two bus reads and its cycle count (notes/assumptions/1.md). -/
def State.reset : State where
  pc := 0x0000
  sp := Config.spReset
  a := Config.aReset
  x := Config.xReset
  y := Config.yReset
  flags := ⟨false, false, true, false, false, false, false⟩
  nmiPending := false
  resPending := false
  halted := false
  irqLine := false
  mem := []
  windows := []
  device := 0
  busLog := [.read 0xFFFC 0x00, .read 0xFFFD 0x00]
  cycles := Config.resetCycles

end Sys2Proof.Machine
end

