-- ==== Sys2Proof/Machine/Flags.lean ====
section
/-! DEFINITION. Every flag computation: the status byte (spec/10_state.md R26 to R28), `SetZN` (R29), the adder and the
comparator (spec/42_arithmetic.md R110, spec/49_supplied_instructions.md R201) and the shifter (spec/44_shift_rotate.md
R130). Pure functions of bytes and flags. -/

namespace Sys2Proof.Machine

/-- `SetZN(v)` (R29). -/
def Flags.setZN (f : Flags) (v : Byte) : Flags := { f with z := v == 0x00, n := v.getLsbD 7 }

/-- The byte whose bit `k` is `f` and whose other bits are 0. -/
def flagBit (k : Nat) (f : Bool) : Byte := if f then 1#8 <<< k else 0#8

/-- `StatusByte(b4)` (R26, R27): bit 5 always set, bit 4 the push source; the stored `B` is not read. -/
def Flags.statusByte (f : Flags) (b4 : Bool) : Byte :=
  flagBit 7 f.n ||| flagBit 6 f.v ||| flagBit 5 true ||| flagBit 4 b4 ||| flagBit 3 f.d ||| flagBit 2 f.i |||
    flagBit 1 f.z ||| flagBit 0 f.c

/-- `SetFlagsFromByte(v)` (R28): bits 5 and 4 are discarded and the stored `B` is unchanged. -/
def Flags.fromByte (f : Flags) (v : Byte) : Flags :=
  { f with
    n := v.getLsbD 7
    v := v.getLsbD 6
    d := v.getLsbD 3
    i := v.getLsbD 2
    z := v.getLsbD 1
    c := v.getLsbD 0 }

/-- What the adder gives: result, carry out, overflow (R110). -/
structure AdderResult where
  r : Byte
  cout : Bool
  vout : Bool
deriving DecidableEq, Repr

/-- `alu_adc` (R110): a 9-bit sum. -/
def aluAdc (a m : Byte) (cin : Bool) : AdderResult :=
  let sum : BitVec 9 := a.setWidth 9 + m.setWidth 9 + (BitVec.ofBool cin).setWidth 9
  let r : Byte := sum.setWidth 8
  { r := r, cout := sum.getLsbD 8, vout := ((a ^^^ r) &&& (m ^^^ r)).getLsbD 7 }

/-- The flags after ADC or SBC from the adder's outputs: C, V, Z, N (R111, R113). -/
def Flags.ofAdder (f : Flags) (q : AdderResult) : Flags := Flags.setZN { f with c := q.cout, v := q.vout } q.r

/-- `(C, Z, N) <- alu_cmp(r, m)` (R201): the adder as a subtractor with carry-in 1, its result and overflow dropped. -/
def Flags.compare (f : Flags) (r m : Byte) : Flags :=
  let q := aluAdc r (m ^^^ 0xFF) true
  Flags.setZN { f with c := q.cout } q.r

/-- BIT: Z from `A & m`, V and N from bits 6 and 7 of the memory byte itself (R124). -/
def Flags.bitTest (f : Flags) (a m : Byte) : Flags :=
  { f with z := (a &&& m) == 0x00, v := m.getLsbD 6, n := m.getLsbD 7 }

/-- What the shifter gives: result and carry out (R130). -/
structure ShiftResult where
  r : Byte
  cout : Bool
deriving DecidableEq, Repr

/-- `alu_asl` (R130). -/
def aluAsl (v : Byte) (_cin : Bool) : ShiftResult := { r := v <<< 1, cout := v.getLsbD 7 }

/-- `alu_lsr` (R130). -/
def aluLsr (v : Byte) (_cin : Bool) : ShiftResult := { r := v >>> 1, cout := v.getLsbD 0 }

/-- `alu_rol` (R130): the old carry enters bit 0. -/
def aluRol (v : Byte) (cin : Bool) : ShiftResult := { r := (v <<< 1) ||| flagBit 0 cin, cout := v.getLsbD 7 }

/-- `alu_ror` (R130): the old carry enters bit 7. -/
def aluRor (v : Byte) (cin : Bool) : ShiftResult := { r := (v >>> 1) ||| flagBit 7 cin, cout := v.getLsbD 0 }

/-- The flags after a shift or rotate: C, Z, N (R131 to R134). -/
def Flags.ofShift (f : Flags) (q : ShiftResult) : Flags := Flags.setZN { f with c := q.cout } q.r

end Sys2Proof.Machine
end

