-- ==== Sys2Proof/Machine/Memory.lean ====
section
/-! DEFINITION. The RAM of the bus (spec/20_memory.md R40, R54), which is what stands at an address without a device
(notes/assumptions/16.md): reading and writing one byte of a memory in canonical form. -/

namespace Sys2Proof.Machine

/-- The byte at an address: "the last byte written to the address (or the stated initial contents)" (R54). -/
def Memory.read : Memory → Nat → Byte
  | [], _ => Config.unlisted
  | (k, v) :: m, a => if k = a then v else Memory.read m a

/-- The memory without a cell for the address. -/
def Memory.erase (a : Nat) : Memory → Memory
  | [] => []
  | (k, v) :: m => if k = a then Memory.erase a m else (k, v) :: Memory.erase a m

/-- The memory with one more cell, at its place in the rising order. -/
def Memory.insert (a : Nat) (v : Byte) : Memory → Memory
  | [] => [(a, v)]
  | (k, w) :: m => if a < k then (a, v) :: (k, w) :: m else (k, w) :: Memory.insert a v m

/-- The memory after the byte is stored (R54); writing what an unlisted address reads as removes the cell. -/
def Memory.write (m : Memory) (a : Nat) (v : Byte) : Memory :=
  if v = Config.unlisted then Memory.erase a m else Memory.insert a v (Memory.erase a m)

/-- The canonical form from address `lo` on. -/
def Memory.wfFrom : Nat → Memory → Bool
  | _, [] => true
  | lo, (k, v) :: m => decide (lo ≤ k) && decide (k < 65536) && decide (v ≠ Config.unlisted) && Memory.wfFrom (k + 1) m

/-- The canonical form: addresses of the 65536 (R40), strictly rising, no cell equal to what an unlisted address reads as. -/
def Memory.wf (m : Memory) : Bool := Memory.wfFrom 0 m

end Sys2Proof.Machine
end

