-- ==== Sys2Proof/Machine/Ops.lean ====
section
/-! DEFINITION. The named operations over registers and memory: the accessors that write a register, the two bus primitives
(spec/20_memory.md R41), the stack (spec/10_state.md R17), the service sequence of an interrupt and the return from one
(spec/60_exceptions.md R238, R242), the reset sequence (spec/70_reset_and_hazards.md R270). -/

namespace Sys2Proof.Machine

/-! ### Writing one piece of state -/

def State.setA (s : State) (v : Byte) : State := { s with a := v }
def State.setX (s : State) (v : Byte) : State := { s with x := v }
def State.setY (s : State) (v : Byte) : State := { s with y := v }
def State.setSp (s : State) (v : Byte) : State := { s with sp := v }
def State.setPc (s : State) (w : Word) : State := { s with pc := w }
def State.setFlags (s : State) (f : Flags) : State := { s with flags := f }
def State.setNmiPending (s : State) (p : Bool) : State := { s with nmiPending := p }
def State.setResPending (s : State) (p : Bool) : State := { s with resPending := p }
def State.setHalted (s : State) (p : Bool) : State := { s with halted := p }
def State.setIrqLine (s : State) (p : Bool) : State := { s with irqLine := p }
def State.setMem (s : State) (m : Memory) : State := { s with mem := m }
def State.setWindows (s : State) (ws : List Window) : State := { s with windows := ws }
def State.setDevice (s : State) (d : Nat) : State := { s with device := d }
def State.setCycles (s : State) (k : Nat) : State := { s with cycles := k }

/-- One more access at the end of the step's list (R47). -/
def State.logBus (s : State) (e : BusAccess) : State := { s with busLog := s.busLog ++ [e] }

/-- The state with the outputs of the step before cleared: no access and no cycle yet. -/
def State.beginStep (s : State) : State := { s with busLog := [], cycles := 0 }

/-- `SetZN(v)` on the machine's flags (R29). -/
def State.setZN (s : State) (v : Byte) : State := s.setFlags (s.flags.setZN v)

/-! ### The bus -/

/-- The address lies in a device's window (R40, R41). -/
def State.hasDevice (s : State) (addr : Word) : Bool :=
  s.windows.any fun w => decide (w.first ≤ addr.toNat) && decide (addr.toNat ≤ w.last)

/-- The byte a `Bus.read` gives now: the RAM's, or what the device answers in its present state (R41, R54). -/
def State.peek (s : State) (addr : Word) : Byte :=
  if s.hasDevice addr then (Config.deviceRead s.device addr).1 else s.mem.read addr.toNat

/-- What the bus does besides giving the byte of a read: the device's reaction (R50), or nothing (R54). -/
def State.readReaction (s : State) (addr : Word) : Reaction :=
  if s.hasDevice addr then (Config.deviceRead s.device addr).2 else { device := s.device, irq := none, nmi := false }

/-- What a device does on a write, or nothing (R41). -/
def State.writeReaction (s : State) (addr : Word) (v : Byte) : Reaction :=
  if s.hasDevice addr then Config.deviceWrite s.device addr v else { device := s.device, irq := none, nmi := false }

/-- A device's reaction takes place: its state, the IRQ line, the NMI latch, which only gets set (R9, R30, R31). -/
def State.react (s : State) (r : Reaction) : State :=
  { s with device := r.device, irqLine := r.irq.getD s.irqLine, nmiPending := r.nmi || s.nmiPending }

/-- `MemRead(addr, 1)`: the byte, and the state after the device's reaction with the access on the list (R41, R47, R50). -/
def State.memRead (s : State) (addr : Word) : Byte × State :=
  (s.peek addr, (s.react (s.readReaction addr)).logBus (.read addr (s.peek addr)))

/-- The RAM after a write: a device's address is none of it (R41, R54). -/
def State.ramAfterWrite (s : State) (addr : Word) (v : Byte) : Memory :=
  if s.hasDevice addr then s.mem else s.mem.write addr.toNat v

/-- `MemWrite(addr, 1, v)` (R41, R47, R54). -/
def State.memWrite (s : State) (addr : Word) (v : Byte) : State :=
  ((s.react (s.writeReaction addr v)).setMem (s.ramAfterWrite addr v)).logBus (.write addr v)

/-! ### The stack (R16, R17) -/

/-- The address a stack pointer designates: `{STACK_PAGE, SP}` (R16). -/
def stackAddr (sp : Byte) : Word := joinBytes Config.stackPage sp

/-- `Push(v)`: write at SP, then decrement modulo 256 (R17). -/
def State.push (s : State) (v : Byte) : State := (s.memWrite (stackAddr s.sp) v).setSp (s.sp - 1)

/-- `Pop()`: increment modulo 256, then read (R17). -/
def State.pop (s : State) : Byte × State := (s.setSp (s.sp + 1)).memRead (stackAddr (s.sp + 1))

/-- A 16-bit value is pushed high byte first (R17). -/
def State.pushWord (s : State) (w : Word) : State := (s.push (hiByte w)).push (loByte w)

/-- A 16-bit value is popped low byte first (R17). -/
def State.popWord (s : State) : Word × State :=
  let lo := s.pop
  let hi := lo.2.pop
  (joinBytes hi.1 lo.1, hi.2)

/-! ### Taking an interrupt and returning from one -/

/-- The kinds of `Service` (R238). -/
inductive IntKind where
  | nmi | irq | brk
deriving DecidableEq, Repr

/-- The vector's address: 0xFFFA for NMI, 0xFFFE for IRQ and BRK (R230, R238). -/
def IntKind.vector : IntKind → Word
  | .nmi => Config.vecNmi
  | .irq => Config.vecIrq
  | .brk => Config.vecIrq

/-- Bit 4 of the pushed status: 1 for the software interrupt only (R230, R240). -/
def IntKind.pushSource : IntKind → Bool
  | .nmi => false
  | .irq => false
  | .brk => true

/-- PC from the vector at an address: low byte read first, then the high one (R43, R238, R270). -/
def State.loadPcFrom (s : State) (vec : Word) : State :=
  let lo := s.memRead vec
  let hi := lo.2.memRead (vec + 1)
  hi.2.setPc (joinBytes hi.1 lo.1)

/-- `Service(kind)` (R238, R240): push PC high, PC low, then the status carrying the I of before; set I; PC from the vector. -/
def State.service (s : State) (kind : IntKind) : State :=
  let s1 := s.pushWord s.pc
  let s2 := s1.push (s1.flags.statusByte kind.pushSource)
  (s2.setFlags { s2.flags with i := true }).loadPcFrom kind.vector

/-- The return from a handler (R242; spec/49_supplied_instructions.md R215): the status byte into N V D I Z C, then PC low
and high, not incremented. -/
def State.returnFromInterrupt (s : State) : State :=
  let p := s.pop
  let w := (p.2.setFlags (p.2.flags.fromByte p.1)).popWord
  w.2.setPc w.1

/-- `Reset()` (R270): every register and flag assigned, PC from the reset vector, the two latches cleared; nothing pushed
and `nmiPending` not written. -/
def State.resetSequence (s : State) : State :=
  let s1 := (((s.setA Config.aReset).setX Config.xReset).setY Config.yReset).setSp Config.spReset
  let s2 := s1.setFlags { c := false, z := false, i := true, d := false, b := false, v := false, n := false }
  ((s2.loadPcFrom Config.vecReset).setResPending false).setHalted false

end Sys2Proof.Machine
end

