-- ==== Sys2Proof/Machine/Boundary.lean ====
section
/-! DEFINITION. The interrupt controller at an instruction boundary (spec/60_exceptions.md R235 to R237, R246, R248). -/

namespace Sys2Proof.Machine

/-- What a `Step` does, settled by its first action (R235, R236). -/
inductive Boundary where
  | reset | halted | nmi | irq | fetch
deriving DecidableEq, Repr

/-- The first of the five conditions of R236 that holds. -/
def State.boundary (s : State) : Boundary :=
  if s.resPending then .reset
  else if s.halted then .halted
  else if s.nmiPending then .nmi
  else if s.irqLine && !s.flags.i then .irq
  else .fetch

/-- A reset step: the sequence, RESET_CYCLES reported (R237, R246, R248). -/
def State.resetStep (s : State) : State := s.resetSequence.setCycles Config.resetCycles

/-- An NMI step: `nmi_pending` cleared as the sequence starts, INT_CYCLES reported (R237, R246, R248). -/
def State.nmiStep (s : State) : State := ((s.setNmiPending false).service .nmi).setCycles Config.intCycles

/-- An IRQ step: the line is not touched (R233), INT_CYCLES reported (R237, R246, R248). -/
def State.irqStep (s : State) : State := (s.service .irq).setCycles Config.intCycles

/-- The states of the controller's FSM (spec/10_state.md R34; R237). -/
inductive Fsm where
  | running | servicingReset | servicingNmi | servicingIrq | servicingBrk
deriving DecidableEq, Repr

/-- Which of the five the `Step` from this state is (R34, R237). BRK is found by the decoder in the same step. -/
def State.fsmDuring (s : State) : Fsm :=
  match s.boundary with
  | .reset => .servicingReset
  | .halted => .running
  | .nmi => .servicingNmi
  | .irq => .servicingIrq
  | .fetch => if s.peek s.pc = opcodeOf .brk then .servicingBrk else .running

end Sys2Proof.Machine
end

