-- ==== Sys2Proof/Machine/Cycles.lean ====
section
/-! DEFINITION. The cycle count a `Step` returns for an instruction (spec/30_encoding.md R65, R68): an output that no rule
of state depends on (spec/70_reset_and_hazards.md R277). -/

namespace Sys2Proof.Machine

/-- BASE_CYCLES (R5, R65), laid out as the matrix of R64: row by the high nibble of the opcode byte, column by the low. An
illegal opcode reports 0 (R63, R197). -/
def baseCyclesMatrix : List (List Nat) :=
  [
   [ 7, 6, 0, 0, 0, 3, 5, 0, 3, 2, 2, 0, 0, 4, 6, 0 ],
   [ 2, 5, 0, 0, 0, 4, 6, 0, 2, 4, 0, 0, 0, 4, 7, 0 ],
   [ 6, 6, 0, 0, 3, 3, 5, 0, 4, 2, 2, 0, 4, 4, 6, 0 ],
   [ 2, 5, 0, 0, 0, 4, 6, 0, 2, 4, 0, 0, 0, 4, 7, 0 ],
   [ 6, 6, 0, 0, 0, 3, 5, 0, 3, 2, 2, 0, 3, 4, 6, 0 ],
   [ 2, 5, 0, 0, 0, 4, 6, 0, 2, 4, 0, 0, 0, 4, 7, 0 ],
   [ 6, 6, 0, 0, 0, 3, 5, 0, 4, 2, 2, 0, 5, 4, 6, 0 ],
   [ 2, 5, 0, 0, 0, 4, 6, 0, 2, 4, 0, 0, 0, 4, 7, 0 ],
   [ 0, 6, 0, 0, 3, 3, 3, 0, 2, 0, 2, 0, 4, 4, 4, 0 ],
   [ 2, 6, 0, 0, 4, 4, 4, 0, 2, 5, 2, 0, 0, 5, 0, 0 ],
   [ 2, 6, 2, 0, 3, 3, 3, 0, 2, 2, 2, 0, 4, 4, 4, 0 ],
   [ 2, 5, 0, 0, 4, 4, 4, 0, 2, 4, 2, 0, 4, 4, 4, 0 ],
   [ 2, 6, 0, 0, 3, 3, 5, 0, 2, 2, 2, 0, 4, 4, 6, 0 ],
   [ 2, 5, 0, 0, 0, 4, 6, 0, 2, 4, 0, 0, 0, 4, 7, 0 ],
   [ 2, 6, 0, 0, 3, 3, 5, 0, 2, 2, 2, 0, 4, 4, 6, 0 ],
   [ 2, 5, 0, 0, 0, 4, 6, 0, 2, 4, 0, 0, 0, 4, 7, 0 ]
  ]

/-- The base cycle count of an opcode byte (R63, R65). -/
def baseCycles (b0 : Byte) : Nat := (baseCyclesMatrix.getD (b0.toNat / 16) []).getD (b0.toNat % 16) 0

/-- The opcode bytes of class `cross`: the read instructions of R68 in the modes ABX, ABY, IZY (D11). -/
def crossOpcodes : List Byte :=
  [ 0xBD, 0xB9, 0xB1,   -- LDA
    0xBE,               -- LDX
    0xBC,               -- LDY
    0x7D, 0x79, 0x71,   -- ADC
    0xFD, 0xF9, 0xF1,   -- SBC
    0x3D, 0x39, 0x31,   -- AND
    0x1D, 0x19, 0x11,   -- ORA
    0x5D, 0x59, 0x51,   -- EOR
    0xDD, 0xD9, 0xD1 ]  -- CMP

/-- The opcode bytes of class `branch`: the eight of mode REL (R68). -/
def branchOpcodes : List Byte := [0x10, 0x30, 0x50, 0x70, 0x90, 0xB0, 0xD0, 0xF0]

/-- The penalty class of an opcode byte (R68). -/
def penaltyOf (b0 : Byte) : Penalty :=
  if crossOpcodes.contains b0 then .cross else if branchOpcodes.contains b0 then .branch else .none

/-- The cycle sum of R68. -/
def stepCycles (b0 : Byte) (crossed taken : Bool) : Nat :=
  baseCycles b0
    + (if penaltyOf b0 = .cross ∧ crossed = true then 1 else 0)
    + (if penaltyOf b0 = .branch ∧ taken = true then 1 else 0)
    + (if penaltyOf b0 = .branch ∧ taken = true ∧ crossed = true then 1 else 0)

/-- The end of an instruction: the next state with the cycle count the step returns (R248). -/
def State.retire (s : State) (i : Instr) (crossed taken : Bool) : Result :=
  .next { s with cycles := stepCycles (opcodeOf i) crossed taken }

end Sys2Proof.Machine
end

