-- ==== Sys2Proof/Machine/Operands.lean ====
section
/-! DEFINITION. The addressing-mode resolver (spec/40_addressing_modes.md). The operand bytes are already fetched and
assembled in the instruction (Machine/Fetch.lean; notes/assumptions/10.md), so `PC` is the address of the next instruction;
what is left of `Resolve` is the pointer reads, the index and the page crossing. -/

namespace Sys2Proof.Machine

/-- `zext_16` of R6: an address in page 0 (R62). -/
def zeroPage (z : Byte) : Word := z.setWidth 16

/-- `sext_16` of R6. -/
def signExtend16 (d : Byte) : Word := d.signExtend 16

/-- The high byte of an address changed (R94). -/
def pageCrossed (before after : Word) : Bool := hiByte after != hiByte before

/-- What `Resolve` returns for a mode that names memory: the effective address and the crossing bit (R80), with the state
after its bus reads. -/
structure Resolved where
  ea : Word
  crossed : Bool
  st : State

/-- The two pointer bytes in page 0, low then high, the second from `(p + 1) mod 256` (R91, R92, D15). -/
def State.readPointer (s : State) (p : Byte) : Word × State :=
  let lo := s.memRead (zeroPage p)
  let hi := lo.2.memRead (zeroPage (p + 1))
  (joinBytes hi.1 lo.1, hi.2)

/-- An index added with full 16-bit carry, reporting the crossing (R88, R89, R92). -/
def indexed (base : Word) (index : Byte) (s : State) : Resolved :=
  let ea := base + zeroPage index
  { ea := ea, crossed := pageCrossed base ea, st := s }

/-- `Resolve(mode)` for the modes of `AddrForm`, less the operand fetch. -/
def resolve (m : AddrForm) (s : State) : Resolved :=
  match m with
  | .zp z => { ea := zeroPage z, crossed := false, st := s }                 -- R84
  | .zpx z => { ea := zeroPage (z + s.x), crossed := false, st := s }        -- R85
  | .zpy z => { ea := zeroPage (z + s.y), crossed := false, st := s }        -- R86
  | .abs addr => { ea := addr, crossed := false, st := s }                   -- R87
  | .abx base => indexed base s.x s                                          -- R88
  | .aby base => indexed base s.y s                                          -- R89
  | .izx z =>                                                                -- R91
    let p := s.readPointer (z + s.x)
    { ea := p.1, crossed := false, st := p.2 }
  | .izy z =>                                                                -- R92
    let p := s.readPointer z
    indexed p.1 s.y p.2

/-- The address `ptr2` of R90: the high byte of the pointer is never incremented. -/
def wrapInPage (ptr : Word) : Word := joinBytes (hiByte ptr) (loByte ptr + 1)

/-- `Resolve(IND)` (R90), with the page-wrap of the pointer's second byte. -/
def resolveIndirect (ptr : Word) (s : State) : Word × State :=
  let lo := s.memRead ptr
  let hi := lo.2.memRead (wrapInPage ptr)
  (joinBytes hi.1 lo.1, hi.2)

/-- The target of `Resolve(REL)`: relative to the address of the next instruction (R93). -/
def relTarget (next : Word) (d : Byte) : Word := next + signExtend16 d

/-- An operand byte read, with the crossing bit and the state after the bus reads. -/
structure Operated where
  val : Byte
  crossed : Bool
  st : State

/-- `ReadOperand` at a memory operand: exactly one bus read (R95). -/
def readMem (m : AddrForm) (s : State) : Operated :=
  let q := resolve m s
  let v := q.st.memRead q.ea
  { val := v.1, crossed := q.crossed, st := v.2 }

/-- `Resolve` then `ReadOperand` for a read instruction (R83, R95). -/
def readOperand (f : ReadForm) (s : State) : Operated :=
  match f with
  | .imm v => { val := v, crossed := false, st := s }
  | .mem m => readMem m s

/-- `Resolve` then one `MemWrite` of a byte: a store, which never reads its target (R80, R100). `crossed` is for the
cycle sum. -/
def storeOperand (m : AddrForm) (v : Byte) (s : State) : Resolved :=
  let q := resolve m s
  { q with st := q.st.memWrite q.ea v }

/-- Read, modify, write back (R82, R95, R135): on memory one read then one write at the same address, on the accumulator no
bus access. `val` is the byte read; `g` of it is what was written. -/
def modifyOperand (f : RmwForm) (g : Byte → Byte) (s : State) : Operated :=
  match f with
  | .acc => { val := s.a, crossed := false, st := s.setA (g s.a) }
  | .mem m =>
    let q := resolve m s
    let v := q.st.memRead q.ea
    { val := v.1, crossed := q.crossed, st := v.2.memWrite q.ea (g v.1) }

end Sys2Proof.Machine

namespace Sys2Proof

/-! ### The operand types of the instructions as forms of the resolver -/

def AluOperand.toRead : AluOperand → ReadForm
  | .imm v => .imm v
  | .zp z => .mem (.zp z)
  | .zpx z => .mem (.zpx z)
  | .abs w => .mem (.abs w)
  | .abx w => .mem (.abx w)
  | .aby w => .mem (.aby w)
  | .izx z => .mem (.izx z)
  | .izy z => .mem (.izy z)

def LdxOperand.toRead : LdxOperand → ReadForm
  | .imm v => .imm v
  | .zp z => .mem (.zp z)
  | .zpy z => .mem (.zpy z)
  | .abs w => .mem (.abs w)
  | .aby w => .mem (.aby w)

def LdyOperand.toRead : LdyOperand → ReadForm
  | .imm v => .imm v
  | .zp z => .mem (.zp z)
  | .zpx z => .mem (.zpx z)
  | .abs w => .mem (.abs w)
  | .abx w => .mem (.abx w)

def CmpOperand.toRead : CmpOperand → ReadForm
  | .imm v => .imm v
  | .zp z => .mem (.zp z)
  | .abs w => .mem (.abs w)

def StaOperand.toAddr : StaOperand → AddrForm
  | .zp z => .zp z
  | .zpx z => .zpx z
  | .abs w => .abs w
  | .abx w => .abx w
  | .aby w => .aby w
  | .izx z => .izx z
  | .izy z => .izy z

def StxOperand.toAddr : StxOperand → AddrForm
  | .zp z => .zp z
  | .zpy z => .zpy z
  | .abs w => .abs w

def StyOperand.toAddr : StyOperand → AddrForm
  | .zp z => .zp z
  | .zpx z => .zpx z
  | .abs w => .abs w

def BitOperand.toAddr : BitOperand → AddrForm
  | .zp z => .zp z
  | .abs w => .abs w

def IncOperand.toAddr : IncOperand → AddrForm
  | .zp z => .zp z
  | .zpx z => .zpx z
  | .abs w => .abs w
  | .abx w => .abx w

def ShiftOperand.toRmw : ShiftOperand → RmwForm
  | .acc => .acc
  | .zp z => .mem (.zp z)
  | .zpx z => .mem (.zpx z)
  | .abs w => .mem (.abs w)
  | .abx w => .mem (.abx w)

end Sys2Proof
end

