-- ==== Sys2Proof/Machine/Arithmetic.lean ====
section
/-! DEFINITION. ADC and SBC (spec/42_arithmetic.md). D is neither read nor written (R112). -/

namespace Sys2Proof.Machine

/-- The accumulator plus `operand m` plus carry, flags C, V, Z, N (R111, R113). -/
def addToA (i : Instr) (f : ReadForm) (operand : Byte → Byte) (s : State) : Result :=
  let q := readOperand f s
  let sum := aluAdc s.a (operand q.val) s.flags.c
  ((q.st.setA sum.r).setFlags (s.flags.ofAdder sum)).retire i q.crossed false

/-- ADC (R111). -/
def execAdc (o : AluOperand) (s : State) : Result := addToA (.adc o) o.toRead (fun m => m) s

/-- SBC: the adder on the operand's one's complement (R113). -/
def execSbc (o : AluOperand) (s : State) : Result := addToA (.sbc o) o.toRead (fun m => m ^^^ 0xFF) s

end Sys2Proof.Machine
end

