-- ==== Sys2Proof/Machine/Branch.lean ====
section
/-! DEFINITION. The eight conditional branches (spec/45_branch.md). -/

namespace Sys2Proof.Machine

/-- `Branch(cond)` (R140). The displacement byte was fetched whether or not the branch is taken; PC is the address of the
next instruction. -/
def branchIf (i : Instr) (d : Byte) (cond : Bool) (s : State) : Result :=
  let target := relTarget s.pc d
  (s.setPc (if cond then target else s.pc)).retire i (pageCrossed s.pc target) cond

/-- BPL (R141). -/
def execBpl (d : Byte) (s : State) : Result := branchIf (.bpl d) d (!s.flags.n) s

/-- BMI (R142). -/
def execBmi (d : Byte) (s : State) : Result := branchIf (.bmi d) d s.flags.n s

/-- BVC (R143). -/
def execBvc (d : Byte) (s : State) : Result := branchIf (.bvc d) d (!s.flags.v) s

/-- BVS (R144). -/
def execBvs (d : Byte) (s : State) : Result := branchIf (.bvs d) d s.flags.v s

/-- BCC (R145). -/
def execBcc (d : Byte) (s : State) : Result := branchIf (.bcc d) d (!s.flags.c) s

/-- BCS (R146). -/
def execBcs (d : Byte) (s : State) : Result := branchIf (.bcs d) d s.flags.c s

/-- BNE (R147). -/
def execBne (d : Byte) (s : State) : Result := branchIf (.bne d) d (!s.flags.z) s

/-- BEQ (R148). -/
def execBeq (d : Byte) (s : State) : Result := branchIf (.beq d) d s.flags.z s

end Sys2Proof.Machine
end

