-- ==== Sys2Proof/Machine/FlagSystem.lean ====
section
/-! DEFINITION. The flag instructions, NOP, BRK and the illegal opcodes (spec/48_flag_system.md). -/

namespace Sys2Proof.Machine

/-- CLC (R180). -/
def execClc (s : State) : Result := (s.setFlags { s.flags with c := false }).retire .clc false false

/-- SEC (R181). -/
def execSec (s : State) : Result := (s.setFlags { s.flags with c := true }).retire .sec false false

/-- CLI (R182). -/
def execCli (s : State) : Result := (s.setFlags { s.flags with i := false }).retire .cli false false

/-- SEI (R183). -/
def execSei (s : State) : Result := (s.setFlags { s.flags with i := true }).retire .sei false false

/-- CLD (R184). -/
def execCld (s : State) : Result := (s.setFlags { s.flags with d := false }).retire .cld false false

/-- SED (R185). -/
def execSed (s : State) : Result := (s.setFlags { s.flags with d := true }).retire .sed false false

/-- CLV (R186). -/
def execClv (s : State) : Result := (s.setFlags { s.flags with v := false }).retire .clv false false

/-- NOP (R190). -/
def execNop (s : State) : Result := s.retire .nop false false

/-- BRK (R191): PC past the padding byte, which is not read, then `Service(BRK)`. -/
def execBrk (s : State) : Result := ((s.setPc (s.pc + 1)).service .brk).retire .brk false false

/-- `IllegalOpcode()` of R248 under either policy. `halt` (R197): PC back at the opcode, `halted` set, 0 cycles. `nop`
(R198): the operand bytes skipped without reading them, with the OPEN length and cycle count of the byte. -/
def illegalOpcode (policy : IllegalPolicy) (b : Byte) (s : State) : Result :=
  match policy with
  | .halt => .next (((s.setPc (s.pc - 1)).setHalted true).setCycles 0)
  | .nop => .next ((s.setPc (s.pc + BitVec.ofNat 16 (Config.illegalSkip b).val)).setCycles (Config.illegalCycles b))

/-- An illegal opcode byte under ILLEGAL_POLICY (R66, R197, R198). -/
def execIll (b : Byte) (s : State) : Result := illegalOpcode Config.illegalPolicy b s

end Sys2Proof.Machine
end

