-- ==== Sys2Proof/Machine/JumpCall.lean ====
section
/-! DEFINITION. JMP, JSR, RTS (spec/46_jump_call.md). -/

namespace Sys2Proof.Machine

/-- JMP: absolute (R155) and indirect, with the page-wrap bug (R156). -/
def execJmp (o : JmpOperand) (s : State) : Result :=
  match o with
  | .abs target => (s.setPc target).retire (.jmp (.abs target)) false false
  | .ind ptr =>
    let q := resolveIndirect ptr s
    (q.2.setPc q.1).retire (.jmp (.ind ptr)) false false

/-- JSR (R157): PC is the return address; the address of the last byte of the JSR is pushed, high byte first. -/
def execJsr (target : Word) (s : State) : Result :=
  ((s.pushWord (s.pc - 1)).setPc target).retire (.jsr target) false false

/-- RTS (R158): pops and increments. -/
def execRts (s : State) : Result :=
  let w := s.popWord
  (w.2.setPc (w.1 + 1)).retire .rts false false

end Sys2Proof.Machine
end

