-- ==== Sys2Proof/Machine/LoadStore.lean ====
section
/-! DEFINITION. Load and store: LDA, LDX, LDY, STA, STX, STY (spec/41_load_store.md). -/

namespace Sys2Proof.Machine

/-- A load: `put` writes the register, `Z` and `N` from the value; the address is computed before (R100). -/
def loadRegister (i : Instr) (f : ReadForm) (put : State → Byte → State) (s : State) : Result :=
  let q := readOperand f s
  ((put q.st q.val).setZN q.val).retire i q.crossed false

/-- A store: one write of the register to the effective address, no flag (R100). -/
def storeRegister (i : Instr) (m : AddrForm) (v : Byte) (s : State) : Result :=
  let q := storeOperand m v s
  q.st.retire i q.crossed false

/-- LDA (R101). -/
def execLda (o : AluOperand) (s : State) : Result := loadRegister (.lda o) o.toRead State.setA s

/-- LDX (R102). -/
def execLdx (o : LdxOperand) (s : State) : Result := loadRegister (.ldx o) o.toRead State.setX s

/-- LDY (R103). -/
def execLdy (o : LdyOperand) (s : State) : Result := loadRegister (.ldy o) o.toRead State.setY s

/-- STA (R104). -/
def execSta (o : StaOperand) (s : State) : Result := storeRegister (.sta o) o.toAddr s.a s

/-- STX (R105). -/
def execStx (o : StxOperand) (s : State) : Result := storeRegister (.stx o) o.toAddr s.x s

/-- STY (R106). -/
def execSty (o : StyOperand) (s : State) : Result := storeRegister (.sty o) o.toAddr s.y s

end Sys2Proof.Machine
end

