-- ==== Sys2Proof/Machine/Logical.lean ====
section
/-! DEFINITION. AND, ORA, EOR, BIT (spec/43_logical.md). -/

namespace Sys2Proof.Machine

/-- The accumulator combined with the operand, `Z` and `N` from the result (R120). -/
def combineA (i : Instr) (f : ReadForm) (op : Byte → Byte → Byte) (s : State) : Result :=
  let q := readOperand f s
  let r := op s.a q.val
  ((q.st.setA r).setZN r).retire i q.crossed false

/-- AND (R121). -/
def execAnd (o : AluOperand) (s : State) : Result := combineA (.and o) o.toRead (fun a m => a &&& m) s

/-- ORA (R122). -/
def execOra (o : AluOperand) (s : State) : Result := combineA (.ora o) o.toRead (fun a m => a ||| m) s

/-- EOR (R123). -/
def execEor (o : AluOperand) (s : State) : Result := combineA (.eor o) o.toRead (fun a m => a ^^^ m) s

/-- BIT (R124): A is not written. -/
def execBit (o : BitOperand) (s : State) : Result :=
  let q := readMem o.toAddr s
  (q.st.setFlags (s.flags.bitTest s.a q.val)).retire (.bit o) q.crossed false

end Sys2Proof.Machine
end

