-- ==== Sys2Proof/Machine/Shift.lean ====
section
/-! DEFINITION. ASL, LSR, ROL, ROR (spec/44_shift_rotate.md). -/

namespace Sys2Proof.Machine

/-- A shift or rotate of the operand in place, flags C, Z, N (R131 to R135). -/
def shiftOperand (i : Instr) (f : RmwForm) (alu : Byte → Bool → ShiftResult) (s : State) : Result :=
  let q := modifyOperand f (fun v => (alu v s.flags.c).r) s
  (q.st.setFlags (s.flags.ofShift (alu q.val s.flags.c))).retire i q.crossed false

/-- ASL (R131). -/
def execAsl (o : ShiftOperand) (s : State) : Result := shiftOperand (.asl o) o.toRmw aluAsl s

/-- LSR (R132). -/
def execLsr (o : ShiftOperand) (s : State) : Result := shiftOperand (.lsr o) o.toRmw aluLsr s

/-- ROL (R133). -/
def execRol (o : ShiftOperand) (s : State) : Result := shiftOperand (.rol o) o.toRmw aluRol s

/-- ROR (R134). -/
def execRor (o : ShiftOperand) (s : State) : Result := shiftOperand (.ror o) o.toRmw aluRor s

end Sys2Proof.Machine
end

