-- ==== Sys2Proof/Machine/Stack.lean ====
section
/-! DEFINITION. PHA, PLA, PHP, PLP, TSX, TXS (spec/47_stack.md). -/

namespace Sys2Proof.Machine

/-- PHA (R165). -/
def execPha (s : State) : Result := (s.push s.a).retire .pha false false

/-- PLA (R166). -/
def execPla (s : State) : Result :=
  let q := s.pop
  ((q.2.setA q.1).setZN q.1).retire .pla false false

/-- PHP: a software push, bit 4 set (R167). -/
def execPhp (s : State) : Result := (s.push (s.flags.statusByte true)).retire .php false false

/-- PLP (R168). -/
def execPlp (s : State) : Result :=
  let q := s.pop
  (q.2.setFlags (q.2.flags.fromByte q.1)).retire .plp false false

/-- TSX (R169). -/
def execTsx (s : State) : Result := ((s.setX s.sp).setZN s.sp).retire .tsx false false

/-- TXS: no flag (R170). -/
def execTxs (s : State) : Result := (s.setSp s.x).retire .txs false false

end Sys2Proof.Machine
end

