-- ==== Sys2Proof/Machine/Supplied.lean ====
section
/-! DEFINITION. The supplied instructions: CMP, CPX, CPY, INC, DEC, INX, INY, DEX, DEY, TAX, TAY, TXA, TYA, RTI
(spec/49_supplied_instructions.md). -/

namespace Sys2Proof.Machine

/-- A compare of a register with the operand, flags C, Z, N (R201). -/
def compareWith (i : Instr) (r : Byte) (f : ReadForm) (s : State) : Result :=
  let q := readOperand f s
  (q.st.setFlags (s.flags.compare r q.val)).retire i q.crossed false

/-- CMP (R202). -/
def execCmp (o : AluOperand) (s : State) : Result := compareWith (.cmp o) s.a o.toRead s

/-- CPX (R203). -/
def execCpx (o : CmpOperand) (s : State) : Result := compareWith (.cpx o) s.x o.toRead s

/-- CPY (R204). -/
def execCpy (o : CmpOperand) (s : State) : Result := compareWith (.cpy o) s.y o.toRead s

/-- A memory byte replaced by `g` of it, `Z` and `N` from the result (R205, R206). -/
def stepMemory (i : Instr) (m : AddrForm) (g : Byte → Byte) (s : State) : Result :=
  let q := modifyOperand (.mem m) g s
  (q.st.setZN (g q.val)).retire i q.crossed false

/-- INC (R205). -/
def execInc (o : IncOperand) (s : State) : Result := stepMemory (.inc o) o.toAddr (fun v => v + 1) s

/-- DEC (R206). -/
def execDec (o : IncOperand) (s : State) : Result := stepMemory (.dec o) o.toAddr (fun v => v - 1) s

/-- INX (R207). -/
def execInx (s : State) : Result := ((s.setX (s.x + 1)).setZN (s.x + 1)).retire .inx false false

/-- INY (R208). -/
def execIny (s : State) : Result := ((s.setY (s.y + 1)).setZN (s.y + 1)).retire .iny false false

/-- DEX (R209). -/
def execDex (s : State) : Result := ((s.setX (s.x - 1)).setZN (s.x - 1)).retire .dex false false

/-- DEY (R210). -/
def execDey (s : State) : Result := ((s.setY (s.y - 1)).setZN (s.y - 1)).retire .dey false false

/-- TAX (R211). -/
def execTax (s : State) : Result := ((s.setX s.a).setZN s.a).retire .tax false false

/-- TAY (R212). -/
def execTay (s : State) : Result := ((s.setY s.a).setZN s.a).retire .tay false false

/-- TXA (R213). -/
def execTxa (s : State) : Result := ((s.setA s.x).setZN s.x).retire .txa false false

/-- TYA (R214). -/
def execTya (s : State) : Result := ((s.setA s.y).setZN s.y).retire .tya false false

/-- RTI (R215; spec/60_exceptions.md R242). -/
def execRti (s : State) : Result := s.returnFromInterrupt.retire .rti false false

end Sys2Proof.Machine
end

