-- ==== Sys2Proof/Machine/Fetch.lean ====
section
/-! DEFINITION. Fetching an instruction (spec/30_encoding.md R67, and the operand fetch of spec/40_addressing_modes.md R83 to
R93): each byte read through the bus at PC, PC advanced past it. -/

namespace Sys2Proof.Machine

/-- One byte of the instruction stream: `MemRead(PC, 1)`, `PC <- PC +16 1` (R67; spec/10_state.md R15). -/
def State.fetchByte (s : State) : Byte × State :=
  let r := s.memRead s.pc
  (r.1, r.2.setPc (s.pc + 1))

/-- `FetchDecode` and the operand fetch: the instruction at PC, and the state with PC at the following instruction. BRK's
padding byte is no operand and is not read here (R61, D24). -/
def State.fetchDecode (s : State) : Instr × State :=
  let b0 := s.fetchByte
  match layoutOf b0.1 with
  | .bare i => (i, b0.2)
  | .byteArg f =>
    let b1 := b0.2.fetchByte
    (f b1.1, b1.2)
  | .wordArg f =>
    let lo := b0.2.fetchByte
    let hi := lo.2.fetchByte
    (f (joinBytes hi.1 lo.1), hi.2)

/-- The state with bytes stored in the RAM from an address on, by no access of CORE. -/
def State.place (s : State) (addr : Word) : List Byte → State
  | [] => s
  | b :: bs => (s.setMem (s.mem.write addr.toNat b)).place (addr + 1) bs

end Sys2Proof.Machine
end

