-- ==== Sys2Proof/Machine/Step.lean ====
section
/-! DEFINITION. `Step` (spec/60_exceptions.md R248): exactly one instruction or one service sequence. `irq_line`, its
argument in the spec, is a field of the state (notes/assumptions/7.md). -/

namespace Sys2Proof.Machine

/-- `Step` (R248). The list of bus accesses and the cycle count start empty; a halted core's step changes nothing else
(R249). -/
def step (s : State) : Host.Outcome State Fault Refusal :=
  let s0 := s.beginStep
  match s.boundary with
  | .reset => .next s0.resetStep
  | .halted => .next s0
  | .nmi => .next s0.nmiStep
  | .irq => .next s0.irqStep
  | .fetch => exec s0.fetchDecode.1 s0.fetchDecode.2

/-- `s` with the instruction whose bits are `w` stored where the next step fetches, and with that step free to fetch: RAM
there and no device, no reset or interrupt taken and the core not halted (R236; notes/assumptions/1.md). -/
def State.withFetchWord (s : State) (nbits w : Nat) : State :=
  let placed := (s.setWindows []).place s.pc (tableBytes nbits w)
  (((placed.setResPending false).setHalted false).setNmiPending false).setIrqLine false

end Sys2Proof.Machine
end

