-- ==== Sys2Proof/Machine/HostMoves.lean ====
section
/-! DEFINITION. What the host and the devices may do between two steps (spec/60_exceptions.md R256, spec/10_state.md R37,
R38). `step` takes none of these moves by itself (notes/assumptions/7.md). -/

namespace Sys2Proof.Machine

/-- "set `nmi_pending`": a request while it is already 1 leaves it 1 (R30, R256). -/
def State.hostSetNmi (s : State) : State := s.setNmiPending true

/-- "request reset" (R32, R256). -/
def State.hostRequestReset (s : State) : State := s.setResPending true

/-- "change `irq_line` (devices)": the level the next step samples (R31, R233, R256). -/
def State.hostSetIrqLine (s : State) (level : Bool) : State := s.setIrqLine level

/-- "change bus contents": a byte of the RAM stored with no access of CORE (R55, R256). -/
def State.hostPoke (s : State) (addr : Word) (v : Byte) : State := s.setMem (s.mem.write addr.toNat v)

/-- "change bus contents": the devices act, and are in another state (R55, R256). -/
def State.hostMoveDevice (s : State) (d : Nat) : State := s.setDevice d

/-- The host composes the bus: which addresses are a device's (R5, R40, R41). -/
def State.hostCompose (s : State) (ws : List Window) : State := s.setWindows ws

/-- The fields the host's `get` and `set` name: five registers and seven flags (R37). -/
inductive HostReg where
  | pc | sp | a | x | y
deriving DecidableEq, Repr

inductive HostFlag where
  | c | z | i | d | b | v | n
deriving DecidableEq, Repr

/-- `get` of a register, zero-extended to 16 bits for the four 8-bit ones (R37). -/
def State.hostGet (s : State) : HostReg → Word
  | .pc => s.pc
  | .sp => s.sp.setWidth 16
  | .a => s.a.setWidth 16
  | .x => s.x.setWidth 16
  | .y => s.y.setWidth 16

/-- `set` of a register: exactly that one is written (R37); an 8-bit register takes the low byte. -/
def State.hostSet (s : State) (r : HostReg) (v : Word) : State :=
  match r with
  | .pc => s.setPc v
  | .sp => s.setSp (loByte v)
  | .a => s.setA (loByte v)
  | .x => s.setX (loByte v)
  | .y => s.setY (loByte v)

/-- `get` of a flag (R37). -/
def State.hostGetFlag (s : State) : HostFlag → Bool
  | .c => s.flags.c
  | .z => s.flags.z
  | .i => s.flags.i
  | .d => s.flags.d
  | .b => s.flags.b
  | .v => s.flags.v
  | .n => s.flags.n

/-- `set` of a flag: exactly that one is written (R37). -/
def State.hostSetFlag (s : State) (f : HostFlag) (v : Bool) : State :=
  match f with
  | .c => s.setFlags { s.flags with c := v }
  | .z => s.setFlags { s.flags with z := v }
  | .i => s.setFlags { s.flags with i := v }
  | .d => s.setFlags { s.flags with d := v }
  | .b => s.setFlags { s.flags with b := v }
  | .v => s.setFlags { s.flags with v := v }
  | .n => s.setFlags { s.flags with n := v }

/-- A snapshot: the twelve values of the register file and the flags (R38). -/
structure Snapshot where
  pc : Word
  sp : Byte
  a : Byte
  x : Byte
  y : Byte
  flags : Flags
deriving DecidableEq, Repr

/-- `snapshot` (R38). -/
def State.snapshot (s : State) : Snapshot := { pc := s.pc, sp := s.sp, a := s.a, x := s.x, y := s.y, flags := s.flags }

/-- `restore`: exactly the twelve, the three latches unchanged (R38, D28). -/
def State.restore (s : State) (r : Snapshot) : State :=
  { s with pc := r.pc, sp := r.sp, a := r.a, x := r.x, y := r.y, flags := r.flags }

/-- The machine as constructed on a bus (its RAM, its devices, their state), before its first step: `res_pending = 1`, the
other latches 0, the register file whatever `r` says, for the spec leaves it unspecified (R39, R271, D19). -/
def State.constructed (r : Snapshot) (mem : Memory) (windows : List Window) (device : Nat) (irq : Bool) : State where
  pc := r.pc
  sp := r.sp
  a := r.a
  x := r.x
  y := r.y
  flags := r.flags
  nmiPending := false
  resPending := true
  halted := false
  irqLine := irq
  mem := mem
  windows := windows
  device := device
  busLog := []
  cycles := 0

end Sys2Proof.Machine
end

