-- ==== Sys2Proof/Safety.lean ====
section
/-! DEFINITION. The terms claims are stated in: what counts as a faulted and as a finished machine, the invariant, what a
step may leave changed, and the spec's own tables of addresses, values and bus accesses written in numbers, apart from the
operations of the machine (spec/40_addressing_modes.md R96). -/

namespace Sys2Proof.Safety

open Sys2Proof.Machine

/-- A halted core: "a fault outcome", "a state that is never final" (spec/48_flag_system.md R197,
spec/60_exceptions.md R249; notes/assumptions/6.md). -/
def Faulted (s : State) : Bool := s.halted

/-- The convention of the spec's test programs, not a property of the hardware: the run is over at a boundary at which PC is
the address of the closing jump, and a halted core is not an ended run (spec/70_reset_and_hazards.md R278). -/
def finishedAt (addr : Word) (s : State) : Bool := !Faulted s && s.pc == addr

/-- The invariant of the model: the RAM is in canonical form (notes/assumptions/4.md). -/
def BusCanonical (s : State) : Prop := s.mem.wf = true

/-! ### What bus accesses do -/

/-- What one access does on the bus's side: at a device's address the device reacts (spec/20_memory.md R41, R50; R9 of
spec/00_scope.md), elsewhere the RAM is read or written (R54); the access is put on the list. -/
def accessed (s : State) (e : BusAccess) : State :=
  match e with
  | .read addr _ =>
    if s.hasDevice addr then
      let r := (Config.deviceRead s.device addr).2
      { s with
        device := r.device
        irqLine := (match r.irq with | some level => level | none => s.irqLine)
        nmiPending := r.nmi || s.nmiPending
        busLog := s.busLog ++ [e] }
    else { s with busLog := s.busLog ++ [e] }
  | .write addr v =>
    if s.hasDevice addr then
      let r := Config.deviceWrite s.device addr v
      { s with
        device := r.device
        irqLine := (match r.irq with | some level => level | none => s.irqLine)
        nmiPending := r.nmi || s.nmiPending
        busLog := s.busLog ++ [e] }
    else { s with mem := s.mem.write addr.toNat v, busLog := s.busLog ++ [e] }

/-- The state after a list of accesses, one after another (spec/20_memory.md R49). Only the bus's side changes: the RAM, the
device state, the IRQ line, the NMI latch, the list. -/
def busAfter (s : State) (es : List BusAccess) : State := es.foldl accessed s

/-- The reads of a list of addresses, one after another, each with the byte the bus gives at that moment (R49, R50). -/
def readsOf (s : State) : List Word → List BusAccess
  | [] => []
  | addr :: rest => .read addr (s.peek addr) :: readsOf (accessed s (.read addr (s.peek addr))) rest

/-- The byte an access moves. -/
def byteOf : BusAccess → Byte
  | .read _ v => v
  | .write _ v => v

/-- The 16-bit value that reading `lo`, then `hi` gives, little-endian (spec/20_memory.md R43, R44). -/
def wordAt (s : State) (lo hi : Word) : Nat :=
  (s.peek lo).toNat + 256 * ((accessed s (.read lo (s.peek lo))).peek hi).toNat

/-- The reads of a vector, a pointer or a popped word: low address first. -/
def twoReads (s : State) (lo hi : Word) : List BusAccess := readsOf s [lo, hi]

/-- Every byte of the RAM is as before. -/
def MemoryKept (s t : State) : Prop := ∀ a : Word, s.hasDevice a = false → t.peek a = s.peek a

/-- The byte at `addr` is `v`, unless a device is there, and every other byte of the RAM reads as before; what a device's
address reads as is the device's affair (`accessed`). -/
def StoredOnly (addr : Word) (v : Byte) (s t : State) : Prop :=
  (s.hasDevice addr = false → t.peek addr = v) ∧ ∀ a : Word, a ≠ addr → s.hasDevice a = false → t.peek a = s.peek a

/-- The bytes a run of pushes stores, first pushed first, at and below the stack pointer `sp`, wrapping in the stack page
(spec/10_state.md R17): the address and byte of each. -/
def pushedAt (sp : Byte) : List Byte → List (Word × Byte)
  | [] => []
  | v :: vs => (BitVec.ofNat 16 (0x0100 + sp.toNat), v) :: pushedAt (sp - 1) vs

/-- The bytes of `cells` are stored, none of them at the same address as another, and every other byte reads as before; at a
device's address, see `StoredOnly`. -/
def StoredExactly (cells : List (Word × Byte)) (s t : State) : Prop :=
  (cells.map Prod.fst).Nodup ∧ (∀ c ∈ cells, s.hasDevice c.1 = false → t.peek c.1 = c.2) ∧
    ∀ a : Word, a ∉ cells.map Prod.fst → s.hasDevice a = false → t.peek a = s.peek a

/-- The writes of a run of pushes, in order. -/
def pushAccesses (sp : Byte) (vs : List Byte) : List BusAccess := (pushedAt sp vs).map fun c => .write c.1 c.2

/-- The address of the `k`-th byte a run of pops reads, counting from 1 (spec/10_state.md R17). -/
def popAddr (sp : Byte) (k : Nat) : Word := BitVec.ofNat 16 (0x0100 + (sp.toNat + k) % 256)

/-- The stack page is RAM: no device is in it. CORE does not require it (spec/20_memory.md R46). -/
def StackIsRam (s : State) : Prop := ∀ sp : Byte, s.hasDevice (BitVec.ofNat 16 (0x0100 + sp.toNat)) = false

/-! ### Addresses, operands, accesses and cycles of the modes -/

/-- The two addresses the pointer of a mode is read at, low then high, both in page 0 (R91, R92, R96). -/
def pointerAddresses (m : AddrForm) (s : State) : List Word :=
  match m with
  | .izx z => [BitVec.ofNat 16 ((z.toNat + s.x.toNat) % 256), BitVec.ofNat 16 ((z.toNat + s.x.toNat + 1) % 256)]
  | .izy z => [BitVec.ofNat 16 z.toNat, BitVec.ofNat 16 ((z.toNat + 1) % 256)]
  | .zp _ | .zpx _ | .zpy _ | .abs _ | .abx _ | .aby _ => []

/-- The address before a 16-bit index is added: column "effective address" of R96. -/
def baseAddress (m : AddrForm) (s : State) : Nat :=
  match m with
  | .zp z => z.toNat
  | .zpx z => (z.toNat + s.x.toNat) % 256
  | .zpy z => (z.toNat + s.y.toNat) % 256
  | .abs w => w.toNat
  | .abx w => w.toNat
  | .aby w => w.toNat
  | .izx z =>
    wordAt s (BitVec.ofNat 16 ((z.toNat + s.x.toNat) % 256)) (BitVec.ofNat 16 ((z.toNat + s.x.toNat + 1) % 256))
  | .izy z => wordAt s (BitVec.ofNat 16 z.toNat) (BitVec.ofNat 16 ((z.toNat + 1) % 256))

/-- The index that is added with full 16-bit carry (R88, R89, R92). -/
def carriedIndex (m : AddrForm) (s : State) : Nat :=
  match m with
  | .abx _ => s.x.toNat
  | .aby _ => s.y.toNat
  | .izy _ => s.y.toNat
  | .zp _ | .zpx _ | .zpy _ | .abs _ | .izx _ => 0

/-- The effective address of R96, modulo 65536. -/
def address (m : AddrForm) (s : State) : Word := BitVec.ofNat 16 ((baseAddress m s + carriedIndex m s) % 65536)

/-- The page crossing of R94, in the exact sum of R88: the low byte plus the index exceeds 0xFF. -/
def crosses (m : AddrForm) (s : State) : Bool := decide (255 < baseAddress m s % 256 + carriedIndex m s)

/-- The reads of `Resolve` beyond the operand bytes: pointer low, pointer high (R91, R92, R96). -/
def pointerReads (m : AddrForm) (s : State) : List BusAccess := readsOf s (pointerAddresses m s)

/-- The byte at the effective address once the pointer has been read: what `ReadOperand` finds there (R95). -/
def dataByte (m : AddrForm) (s : State) : Byte := (busAfter s (pointerReads m s)).peek (address m s)

/-- The value `ReadOperand` gives (R95). -/
def operandValue (f : ReadForm) (s : State) : Byte :=
  match f with
  | .imm v => v
  | .mem m => dataByte m s

/-- The reads of a read instruction after the fetch: the pointer, then the data byte once (spec/20_memory.md R47, R50). -/
def readAccesses (f : ReadForm) (s : State) : List BusAccess :=
  match f with
  | .imm _ => []
  | .mem m => pointerReads m s ++ [.read (address m s) (dataByte m s)]

/-- The accesses of a store after the fetch: the pointer, then one write; the target is not read (R100). -/
def storeAccesses (m : AddrForm) (v : Byte) (s : State) : List BusAccess := pointerReads m s ++ [.write (address m s) v]

/-- The penalty cycle `p` of a read instruction: 1 when its mode reports a crossing (spec/30_encoding.md R68). -/
def readPenalty (f : ReadForm) (s : State) : Nat :=
  match f with
  | .imm _ => 0
  | .mem m => if crosses m s then 1 else 0

/-- The base cycles of a read instruction, "2, 3, 4, 4, 4+p, 4+p, 6, 5+p" (R65, R101), plus `p`. -/
def readCycles (f : ReadForm) (s : State) : Nat :=
  readPenalty f s +
    match f with
    | .imm _ => 2
    | .mem (.zp _) => 3
    | .mem (.zpx _) | .mem (.zpy _) | .mem (.abs _) | .mem (.abx _) | .mem (.aby _) => 4
    | .mem (.izx _) => 6
    | .mem (.izy _) => 5

/-- The cycles of a store, without a penalty: "3, 4, 4, 5, 5, 6, 6" (R104, R105, R106). -/
def storeCycles (m : AddrForm) : Nat :=
  match m with
  | .zp _ => 3
  | .zpx _ | .zpy _ | .abs _ => 4
  | .abx _ | .aby _ => 5
  | .izx _ | .izy _ => 6

/-- The cycles of a read-modify-write instruction, without a penalty: "2, 5, 6, 6, 7" (R131); the other forms are none of
its own. -/
def rmwCycles (f : RmwForm) : Nat :=
  match f with
  | .acc => 2
  | .mem (.zp _) => 5
  | .mem (.zpx _) | .mem (.zpy _) | .mem (.abs _) | .mem (.izx _) | .mem (.izy _) => 6
  | .mem (.abx _) | .mem (.aby _) => 7

/-- The byte a read-modify-write instruction works on (R95). -/
def rmwValue (f : RmwForm) (s : State) : Byte :=
  match f with
  | .acc => s.a
  | .mem m => dataByte m s

/-- The bus accesses of a read-modify-write instruction after the fetch: one read, then one write of `r` to the same
address; none on the accumulator (R135). -/
def rmwAccesses (f : RmwForm) (r : Byte) (s : State) : List BusAccess :=
  match f with
  | .acc => []
  | .mem m => pointerReads m s ++ [.read (address m s) (dataByte m s), .write (address m s) r]

/-- What A holds after a read-modify-write instruction with result `r` (R95). -/
def rmwA (f : RmwForm) (r : Byte) (s : State) : Byte :=
  match f with
  | .acc => r
  | .mem _ => s.a

/-- Where in memory the result of a read-modify-write instruction goes, and nowhere else (R95). -/
def RmwStored (f : RmwForm) (r : Byte) (s t : State) : Prop :=
  match f with
  | .acc => MemoryKept s t
  | .mem m => StoredOnly (address m s) r s t

/-! ### Flags and status -/

/-- `Z` and `N` from a result byte: Z iff it is 0, N iff bit 7 is set (spec/10_state.md R20, R25, R29). -/
def withZN (f : Flags) (r : Byte) : Flags := { f with z := decide (r.toNat = 0), n := decide (128 ≤ r.toNat) }

/-- A bit as a number. -/
def bitValue (b : Bool) : Nat := if b then 1 else 0

/-- The status byte as a number: N V 1 b4 D I Z C from bit 7 down (spec/10_state.md R26, R27). -/
def statusValue (f : Flags) (b4 : Bool) : Nat :=
  128 * bitValue f.n + 64 * bitValue f.v + 32 + 16 * bitValue b4 + 8 * bitValue f.d + 4 * bitValue f.i +
    2 * bitValue f.z + bitValue f.c

/-- Bit `k` of a byte, by division. -/
def bitOf (v : Byte) (k : Nat) : Bool := decide (v.toNat / 2 ^ k % 2 = 1)

/-- The flags after a pull of `v`: bits 7, 6, 3, 2, 1, 0, the stored B as before (spec/10_state.md R28). -/
def pulledFlags (f : Flags) (v : Byte) : Flags :=
  { f with n := bitOf v 7, v := bitOf v 6, d := bitOf v 3, i := bitOf v 2, z := bitOf v 1, c := bitOf v 0 }

/-- The bytes a 16-bit value is pushed as, high byte first (spec/10_state.md R17). -/
def wordBytes (w : Word) : List Byte := [BitVec.ofNat 8 (w.toNat / 256), BitVec.ofNat 8 w.toNat]

/-! ### Interrupts, branches, reset, the fetch -/

/-- What `Service` of spec/60_exceptions.md R238 does from `s` to `t`, cycles apart: `ret` and the status byte pushed, I set,
PC from the vector `vec` and the address after it, nothing else. -/
def Serviced (ret : Word) (b4 : Bool) (vec : Word) (s t : State) : Prop :=
  let bytes := wordBytes ret ++ [BitVec.ofNat 8 (statusValue s.flags b4)]
  let pushed := busAfter s (pushAccesses s.sp bytes)
  t = { busAfter pushed (twoReads pushed vec (vec + 1)) with
        pc := BitVec.ofNat 16 (wordAt pushed vec (vec + 1))
        sp := s.sp - 3
        flags := { s.flags with i := true }
        cycles := t.cycles } ∧
    StoredExactly (pushedAt s.sp bytes) s t

/-- The next state of a taken or not taken branch: PC the exact sum of the next instruction's address and the signed
displacement, modulo 65536; 2 cycles, 1 more when taken, 1 more when that leaves the page (spec/45_branch.md R140, R149). -/
def branched (d : Byte) (taken : Bool) (s : State) : State :=
  let target : Word := BitVec.ofInt 16 (s.pc.toNat + d.toInt)
  { s with
    pc := if taken then target else s.pc
    cycles := 2 + bitValue taken + bitValue (taken && decide (target.toNat / 256 ≠ s.pc.toNat / 256)) }

/-- The state after the reset sequence of spec/70_reset_and_hazards.md R270 from `s`, with its two bus reads, their effect
on the bus's side, and its cycle count; `nmi_pending` is not written by CORE. -/
def afterReset (s : State) : State :=
  let start := { s with busLog := [] }
  { busAfter start (twoReads start 0xFFFC 0xFFFD) with
    pc := BitVec.ofNat 16 (wordAt s 0xFFFC 0xFFFD)
    sp := Config.spReset
    a := 0
    x := 0
    y := 0
    flags := { c := false, z := false, i := true, d := false, b := false, v := false, n := false }
    resPending := false
    halted := false
    cycles := 7 }

/-- The reads of the first `n` bytes of the instruction stream at PC, in ascending address order modulo 65536
(spec/20_memory.md R47, R52). -/
def fetchReads (s : State) (n : Nat) : List BusAccess :=
  readsOf s ((List.range n).map fun k => s.pc + BitVec.ofNat 16 k)

/-- The three bytes that reading from PC on would give, enough for any instruction (R60). -/
def streamBytes (s : State) : List Byte := (fetchReads s 3).map byteOf

/-- The state after a list of accesses, if every read in it returns what the bus gives at that moment (R48, R49). -/
def replay : List BusAccess → State → Option State
  | [], s => some s
  | .read a v :: es, s => if s.peek a = v then replay es (accessed s (.read a v)) else none
  | .write a v :: es, s => replay es (accessed s (.write a v))

/-- The NMI latch when the accesses of the step from `s` begin: cleared if that step services it (R232, R237). -/
def latchAtStart (s : State) : Bool := s.nmiPending && (s.resPending || s.halted)

end Sys2Proof.Safety
end

