-- ==== Sys2Proof/Certificates/Slice0/Obligations.lean ====
section
/-! DEFINITION. The statements for the provers. `exec i s` is the execution of `i` from a state whose PC is already past the
bytes of `i` (`Obligations.StepRunsDecodedInstruction`); a next state written `{ s with … }` leaves every field not named
as it was in `s`. `busAfter s es` differs from `s` only in what the accesses `es` do on the bus's side: RAM, device state,
IRQ line, NMI latch, the list itself (`Obligations.BusAccessReachesRamOrDevice`). -/

open Sys2Proof Sys2Proof.Machine Sys2Proof.Safety

/-! ### Encoding and decoding -/

/-- R60 to R65: no bit of an encoding is dropped. -/
def Obligations.DecodeOfEncodeIsIdentity : Prop :=
  ∀ (i : Instr) (rest : List Byte), WellFormed i = true → decode (encode i ++ rest) = .ok (i, rest)

/-- R60, R63: what is decoded is what the bytes say, and it is one of the spec's instructions. -/
def Obligations.EncodeOfDecodeIsIdentity : Prop :=
  ∀ (bs rest : List Byte) (i : Instr), decode bs = .ok (i, rest) → WellFormed i = true ∧ encode i ++ rest = bs

/-- R63, R64, R66: every opcode byte decodes, and to an illegal opcode exactly when R66 lists it. -/
def Obligations.EveryOpcodeByteDecodes : Prop :=
  ∀ (b0 b1 b2 : Byte) (rest : List Byte), ∃ i r, decode (b0 :: b1 :: b2 :: rest) = .ok (i, r) ∧ opcodeOf i = b0 ∧
    (b0 ∈ illegalBytes ↔ i = .ill b0)

/-- Bytes written out from R64, R69 and the vectors of spec/95_test_vectors.md decode to what they stand for. -/
def Obligations.WrittenOutBytesDecode : Prop :=
  decode [0xA9, 0x05] = .ok (.lda (.imm 0x05), []) ∧
  decode [0xB6, 0x10] = .ok (.ldx (.zpy 0x10), []) ∧
  decode [0x9D, 0x01, 0x12] = .ok (.sta (.abx 0x1201), []) ∧
  decode [0x71, 0x40] = .ok (.adc (.izy 0x40), []) ∧
  decode [0x2C, 0x00, 0x30] = .ok (.bit (.abs 0x3000), []) ∧
  decode [0x6A] = .ok (.ror .acc, []) ∧
  decode [0xD0, 0xFB] = .ok (.bne 0xFB, []) ∧
  decode [0x6C, 0xFF, 0x02] = .ok (.jmp (.ind 0x02FF), []) ∧
  decode [0x28] = .ok (.plp, []) ∧
  decode [0x00, 0xEA] = .ok (.brk, [0xEA]) ∧
  decode [0x02] = .ok (.ill 0x02, []) ∧
  decode [0xC1, 0x20] = .ok (.cmp (.izx 0x20), [])

/-! ### Flags and the ALU -/

/-- R29: Z and N can both be 0 and are never both 1. -/
def Obligations.SetZNFollowsResultByte : Prop :=
  ∀ (f : Flags) (v : Byte), f.setZN v = withZN f v ∧ ¬((f.setZN v).z = true ∧ (f.setZN v).n = true) ∧
    ∃ w : Byte, (f.setZN w).z = false ∧ (f.setZN w).n = false

/-- R26, R27: the packing of a pushed status byte. -/
def Obligations.StatusBytePacking : Prop :=
  ∀ (f : Flags) (b4 : Bool), f.statusByte b4 = BitVec.ofNat 8 (statusValue f b4)

/-- R28. -/
def Obligations.PulledByteSetsFlags : Prop :=
  ∀ (f : Flags) (v : Byte), f.fromByte v = pulledFlags f v

/-- R27, R28 (T15): a pulled status byte gives back the six live flags, whatever the push source and the stored B. -/
def Obligations.PushedStatusPullsBack : Prop :=
  ∀ (f g : Flags) (b4 : Bool), g.fromByte (f.statusByte b4) = { f with b := g.b }

/-- R110: the 9-bit sum, and overflow as the true signed sum out of range, equally as the document's sign rule. -/
def Obligations.AdderIsExact : Prop :=
  ∀ (a m : Byte) (cin : Bool),
    let sum := a.toNat + m.toNat + bitValue cin
    let signed := a.toInt + m.toInt + bitValue cin
    let q := aluAdc a m cin
    q.r.toNat = sum % 256 ∧ q.cout = decide (255 < sum) ∧ q.vout = decide (signed < -128 ∨ 127 < signed) ∧
      (q.vout = true ↔ bitOf a 7 = bitOf m 7 ∧ bitOf q.r 7 ≠ bitOf a 7)

/-- R201: C is the unsigned order, Z equality, N bit 7 of the 8-bit difference; no other flag. -/
def Obligations.ComparatorResults : Prop :=
  ∀ (f : Flags) (r m : Byte),
    f.compare r m = { f with c := decide (m.toNat ≤ r.toNat), z := decide (r = m), n := bitOf (r - m) 7 }

/-! ### The resolver -/

/-- R84 to R92, R94, R96: the effective address, the crossing bit, and the pointer reads with what they do on the bus's side;
nothing else changes. -/
def Obligations.ResolverFollowsModeTable : Prop :=
  ∀ (m : AddrForm) (s : State),
    (resolve m s).ea = address m s ∧ (resolve m s).crossed = crosses m s ∧
      (resolve m s).st = busAfter s (pointerReads m s)

/-- R85, R86: "never produces an address outside 0x0000–0x00FF". -/
def Obligations.ZeroPageIndexStaysInPageZero : Prop :=
  ∀ (z : Byte) (s : State), (resolve (.zpx z) s).ea.toNat < 256 ∧ (resolve (.zpy z) s).ea.toNat < 256

/-! ### Load and store -/

/-- R101, R102, R103. -/
def Obligations.LoadsWriteRegisterAndZN : Prop :=
  (∀ (o : AluOperand) (s : State),
    opcodeOf (.lda o) = o.pick 0xA9 0xA5 0xB5 0xAD 0xBD 0xB9 0xA1 0xB1 ∧
    exec (.lda o) s = .next { busAfter s (readAccesses o.toRead s) with
      a := operandValue o.toRead s
      flags := withZN s.flags (operandValue o.toRead s)
      cycles := readCycles o.toRead s }) ∧
  (∀ (o : LdxOperand) (s : State),
    opcodeOf (.ldx o) = o.pick 0xA2 0xA6 0xB6 0xAE 0xBE ∧
    exec (.ldx o) s = .next { busAfter s (readAccesses o.toRead s) with
      x := operandValue o.toRead s
      flags := withZN s.flags (operandValue o.toRead s)
      cycles := readCycles o.toRead s }) ∧
  (∀ (o : LdyOperand) (s : State),
    opcodeOf (.ldy o) = o.pick 0xA0 0xA4 0xB4 0xAC 0xBC ∧
    exec (.ldy o) s = .next { busAfter s (readAccesses o.toRead s) with
      y := operandValue o.toRead s
      flags := withZN s.flags (operandValue o.toRead s)
      cycles := readCycles o.toRead s })

/-- R104, R105, R106: one byte stored at the effective address, no other byte, register or flag. -/
def Obligations.StoresWriteOneByte : Prop :=
  (∀ (o : StaOperand) (s : State),
    opcodeOf (.sta o) = o.pick 0x85 0x95 0x8D 0x9D 0x99 0x81 0x91 ∧
    ∃ t, exec (.sta o) s = .next t ∧ StoredOnly (address o.toAddr s) s.a s t ∧
      t = { busAfter s (storeAccesses o.toAddr s.a s) with cycles := storeCycles o.toAddr }) ∧
  (∀ (o : StxOperand) (s : State),
    opcodeOf (.stx o) = o.pick 0x86 0x96 0x8E ∧
    ∃ t, exec (.stx o) s = .next t ∧ StoredOnly (address o.toAddr s) s.x s t ∧
      t = { busAfter s (storeAccesses o.toAddr s.x s) with cycles := storeCycles o.toAddr }) ∧
  (∀ (o : StyOperand) (s : State),
    opcodeOf (.sty o) = o.pick 0x84 0x94 0x8C ∧
    ∃ t, exec (.sty o) s = .next t ∧ StoredOnly (address o.toAddr s) s.y s t ∧
      t = { busAfter s (storeAccesses o.toAddr s.y s) with cycles := storeCycles o.toAddr })

/-! ### Arithmetic -/

/-- R111. -/
def Obligations.AdcAddsWithCarry : Prop :=
  ∀ (o : AluOperand) (s : State),
    let m := operandValue o.toRead s
    let sum := s.a.toNat + m.toNat + bitValue s.flags.c
    let signed := s.a.toInt + m.toInt + bitValue s.flags.c
    opcodeOf (.adc o) = o.pick 0x69 0x65 0x75 0x6D 0x7D 0x79 0x61 0x71 ∧
    exec (.adc o) s = .next { busAfter s (readAccesses o.toRead s) with
      a := BitVec.ofNat 8 sum
      flags := withZN { s.flags with c := decide (255 < sum), v := decide (signed < -128 ∨ 127 < signed) }
        (BitVec.ofNat 8 sum)
      cycles := readCycles o.toRead s }

/-- R113: the carry is an inverted borrow. -/
def Obligations.SbcSubtractsWithBorrow : Prop :=
  ∀ (o : AluOperand) (s : State),
    let m := operandValue o.toRead s
    let diff : Int := s.a.toNat - m.toNat - (1 - bitValue s.flags.c)
    let signed : Int := s.a.toInt - m.toInt - (1 - bitValue s.flags.c)
    opcodeOf (.sbc o) = o.pick 0xE9 0xE5 0xF5 0xED 0xFD 0xF9 0xE1 0xF1 ∧
    exec (.sbc o) s = .next { busAfter s (readAccesses o.toRead s) with
      a := BitVec.ofInt 8 diff
      flags := withZN { s.flags with c := decide (0 ≤ diff), v := decide (signed < -128 ∨ 127 < signed) }
        (BitVec.ofInt 8 diff)
      cycles := readCycles o.toRead s }

/-- R114, for either carry: the same result, flags and next state. -/
def Obligations.SbcIsAdcOfComplement : Prop :=
  ∀ (b : Byte) (s : State), exec (.sbc (.imm b)) s = exec (.adc (.imm (b ^^^ 0xFF))) s

/-- R112: whatever D is, ADC and SBC give the same next state, D itself as it was. -/
def Obligations.DecimalFlagHasNoNumericEffect : Prop :=
  ∀ (o : AluOperand) (s : State) (d : Bool), ∃ t u,
    exec (.adc o) s = .next t ∧
    exec (.adc o) (s.hostSetFlag .d d) = .next (t.hostSetFlag .d d) ∧
    exec (.sbc o) s = .next u ∧
    exec (.sbc o) (s.hostSetFlag .d d) = .next (u.hostSetFlag .d d) ∧
    t.flags.d = s.flags.d ∧ u.flags.d = s.flags.d

/-! ### Logical -/

/-- R121, R122, R123. -/
def Obligations.LogicalCombineAccumulator : Prop :=
  ∀ (o : AluOperand) (s : State),
    let m := operandValue o.toRead s
    opcodeOf (.and o) = o.pick 0x29 0x25 0x35 0x2D 0x3D 0x39 0x21 0x31 ∧
    opcodeOf (.ora o) = o.pick 0x09 0x05 0x15 0x0D 0x1D 0x19 0x01 0x11 ∧
    opcodeOf (.eor o) = o.pick 0x49 0x45 0x55 0x4D 0x5D 0x59 0x41 0x51 ∧
    exec (.and o) s = .next { busAfter s (readAccesses o.toRead s) with
      a := s.a &&& m
      flags := withZN s.flags (s.a &&& m)
      cycles := readCycles o.toRead s } ∧
    exec (.ora o) s = .next { busAfter s (readAccesses o.toRead s) with
      a := s.a ||| m
      flags := withZN s.flags (s.a ||| m)
      cycles := readCycles o.toRead s } ∧
    exec (.eor o) s = .next { busAfter s (readAccesses o.toRead s) with
      a := s.a ^^^ m
      flags := withZN s.flags (s.a ^^^ m)
      cycles := readCycles o.toRead s }

/-- R124: N and V from the memory byte itself, A not written. -/
def Obligations.BitTestsMemory : Prop :=
  ∀ (o : BitOperand) (s : State),
    let m := dataByte o.toAddr s
    opcodeOf (.bit o) = o.pick 0x24 0x2C ∧
    exec (.bit o) s = .next { busAfter s (readAccesses (.mem o.toAddr) s) with
      flags := { s.flags with z := decide (s.a &&& m = 0), v := bitOf m 6, n := bitOf m 7 }
      cycles := readCycles (.mem o.toAddr) s }

/-! ### Shift and rotate -/

/-- R131, R132, R135. -/
def Obligations.ShiftsMoveOneBit : Prop :=
  ∀ (o : ShiftOperand) (s : State),
    let v := rmwValue o.toRmw s
    let l : Byte := BitVec.ofNat 8 (2 * v.toNat)
    let r : Byte := BitVec.ofNat 8 (v.toNat / 2)
    opcodeOf (.asl o) = o.pick 0x0A 0x06 0x16 0x0E 0x1E ∧
    opcodeOf (.lsr o) = o.pick 0x4A 0x46 0x56 0x4E 0x5E ∧
    (∃ t, exec (.asl o) s = .next t ∧ RmwStored o.toRmw l s t ∧
      t = { busAfter s (rmwAccesses o.toRmw l s) with
        a := rmwA o.toRmw l s
        flags := withZN { s.flags with c := bitOf v 7 } l
        cycles := rmwCycles o.toRmw }) ∧
    (∃ t, exec (.lsr o) s = .next t ∧ RmwStored o.toRmw r s t ∧
      t = { busAfter s (rmwAccesses o.toRmw r s) with
        a := rmwA o.toRmw r s
        flags := withZN { s.flags with c := bitOf v 0 } r
        cycles := rmwCycles o.toRmw })

/-- R133, R134, R135: the old carry enters the vacated bit. -/
def Obligations.RotatesMoveThroughCarry : Prop :=
  ∀ (o : ShiftOperand) (s : State),
    let v := rmwValue o.toRmw s
    let l : Byte := BitVec.ofNat 8 (2 * v.toNat + bitValue s.flags.c)
    let r : Byte := BitVec.ofNat 8 (v.toNat / 2 + 128 * bitValue s.flags.c)
    opcodeOf (.rol o) = o.pick 0x2A 0x26 0x36 0x2E 0x3E ∧
    opcodeOf (.ror o) = o.pick 0x6A 0x66 0x76 0x6E 0x7E ∧
    (∃ t, exec (.rol o) s = .next t ∧ RmwStored o.toRmw l s t ∧
      t = { busAfter s (rmwAccesses o.toRmw l s) with
        a := rmwA o.toRmw l s
        flags := withZN { s.flags with c := bitOf v 7 } l
        cycles := rmwCycles o.toRmw }) ∧
    (∃ t, exec (.ror o) s = .next t ∧ RmwStored o.toRmw r s t ∧
      t = { busAfter s (rmwAccesses o.toRmw r s) with
        a := rmwA o.toRmw r s
        flags := withZN { s.flags with c := bitOf v 0 } r
        cycles := rmwCycles o.toRmw })

/-! ### Branches -/

/-- R140 to R149: each branch on its predicate; PC and the cycle count only. -/
def Obligations.BranchesFollowTheirFlag : Prop :=
  ∀ (d : Byte) (s : State),
    (encode (.bpl d) = [0x10, d] ∧ exec (.bpl d) s = .next (branched d (decide (s.flags.n = false)) s)) ∧
    (encode (.bmi d) = [0x30, d] ∧ exec (.bmi d) s = .next (branched d (decide (s.flags.n = true)) s)) ∧
    (encode (.bvc d) = [0x50, d] ∧ exec (.bvc d) s = .next (branched d (decide (s.flags.v = false)) s)) ∧
    (encode (.bvs d) = [0x70, d] ∧ exec (.bvs d) s = .next (branched d (decide (s.flags.v = true)) s)) ∧
    (encode (.bcc d) = [0x90, d] ∧ exec (.bcc d) s = .next (branched d (decide (s.flags.c = false)) s)) ∧
    (encode (.bcs d) = [0xB0, d] ∧ exec (.bcs d) s = .next (branched d (decide (s.flags.c = true)) s)) ∧
    (encode (.bne d) = [0xD0, d] ∧ exec (.bne d) s = .next (branched d (decide (s.flags.z = false)) s)) ∧
    (encode (.beq d) = [0xF0, d] ∧ exec (.beq d) s = .next (branched d (decide (s.flags.z = true)) s))

/-! ### Jump, call, return -/

/-- R155, R156, R90: absolute, and indirect with the pointer's high byte from the start of the same page when its low byte
is 0xFF. -/
def Obligations.JmpSetsPc : Prop :=
  (∀ (w : Word) (s : State),
    opcodeOf (.jmp (.abs w)) = 0x4C ∧ exec (.jmp (.abs w)) s = .next { s with pc := w, cycles := 3 }) ∧
  (∀ (p : Word) (s : State),
    let next : Nat := if p.toNat % 256 = 255 then p.toNat - 255 else p.toNat + 1
    opcodeOf (.jmp (.ind p)) = 0x6C ∧
    exec (.jmp (.ind p)) s = .next { busAfter s (twoReads s p (BitVec.ofNat 16 next)) with
      pc := BitVec.ofNat 16 (wordAt s p (BitVec.ofNat 16 next))
      cycles := 5 })

/-- R157: the return address minus one pushed, high byte first. -/
def Obligations.JsrPushesReturnAddressMinusOne : Prop :=
  ∀ (target : Word) (s : State),
    let bytes := wordBytes (s.pc - 1)
    opcodeOf (.jsr target) = 0x20 ∧
    ∃ t, exec (.jsr target) s = .next t ∧ StoredExactly (pushedAt s.sp bytes) s t ∧
      t = { busAfter s (pushAccesses s.sp bytes) with
        pc := target
        sp := s.sp - 2
        cycles := 6 }

/-- R158: pops low, high, and increments. -/
def Obligations.RtsPopsAndIncrements : Prop :=
  ∀ s : State,
    encode .rts = [0x60] ∧
    exec .rts s = .next { busAfter s (twoReads s (popAddr s.sp 1) (popAddr s.sp 2)) with
      pc := BitVec.ofNat 16 (wordAt s (popAddr s.sp 1) (popAddr s.sp 2) + 1)
      sp := s.sp + 2
      cycles := 6 }

/-- R157, R158: a matching RTS resumes after the JSR with the stack pointer as it was, wherever the stack pointer is, if the
stack page is RAM (with a device there, R46, a byte pushed need not be the byte popped). -/
def Obligations.RtsUndoesJsr : Prop :=
  ∀ (target : Word) (s : State), StackIsRam s → ∃ t u, exec (.jsr target) s = .next t ∧ exec .rts t = .next u ∧
    u.pc = s.pc ∧ u.sp = s.sp ∧ u.flags = s.flags ∧ u.a = s.a ∧ u.x = s.x ∧ u.y = s.y

/-! ### Stack -/

/-- R165, R167: one byte at the old stack pointer, then the decrement modulo 256. -/
def Obligations.PushInstructionsStoreOneByte : Prop :=
  ∀ s : State,
    let p : Byte := BitVec.ofNat 8 (statusValue s.flags true)
    encode .pha = [0x48] ∧ encode .php = [0x08] ∧
    (∃ t, exec .pha s = .next t ∧ StoredExactly (pushedAt s.sp [s.a]) s t ∧
      t = { busAfter s (pushAccesses s.sp [s.a]) with sp := s.sp - 1, cycles := 3 }) ∧
    (∃ t, exec .php s = .next t ∧ StoredExactly (pushedAt s.sp [p]) s t ∧
      t = { busAfter s (pushAccesses s.sp [p]) with sp := s.sp - 1, cycles := 3 })

/-- R166, R168: the increment modulo 256, then one byte read. -/
def Obligations.PullInstructionsReadOneByte : Prop :=
  ∀ s : State,
    let a := popAddr s.sp 1
    encode .pla = [0x68] ∧ encode .plp = [0x28] ∧
    exec .pla s = .next { busAfter s (readsOf s [a]) with
      a := s.peek a
      sp := s.sp + 1
      flags := withZN s.flags (s.peek a)
      cycles := 4 } ∧
    exec .plp s = .next { busAfter s (readsOf s [a]) with
      sp := s.sp + 1
      flags := pulledFlags s.flags (s.peek a)
      cycles := 4 }

/-- R169, R170: TSX sets Z and N, TXS sets no flag. -/
def Obligations.StackPointerTransfers : Prop :=
  ∀ s : State,
    encode .tsx = [0xBA] ∧ encode .txs = [0x9A] ∧
    exec .tsx s = .next { s with x := s.sp, flags := withZN s.flags s.sp, cycles := 2 } ∧
    exec .txs s = .next { s with sp := s.x, cycles := 2 }

/-! ### Flag and system instructions, illegal opcodes -/

/-- R180 to R186: one flag each, no other effect; R190: NOP has none. -/
def Obligations.FlagInstructionsSetOneFlag : Prop :=
  ∀ s : State,
    (encode .clc = [0x18] ∧ exec .clc s = .next { s with flags := { s.flags with c := false }, cycles := 2 }) ∧
    (encode .sec = [0x38] ∧ exec .sec s = .next { s with flags := { s.flags with c := true }, cycles := 2 }) ∧
    (encode .cli = [0x58] ∧ exec .cli s = .next { s with flags := { s.flags with i := false }, cycles := 2 }) ∧
    (encode .sei = [0x78] ∧ exec .sei s = .next { s with flags := { s.flags with i := true }, cycles := 2 }) ∧
    (encode .cld = [0xD8] ∧ exec .cld s = .next { s with flags := { s.flags with d := false }, cycles := 2 }) ∧
    (encode .sed = [0xF8] ∧ exec .sed s = .next { s with flags := { s.flags with d := true }, cycles := 2 }) ∧
    (encode .clv = [0xB8] ∧ exec .clv s = .next { s with flags := { s.flags with v := false }, cycles := 2 }) ∧
    (encode .nop = [0xEA] ∧ exec .nop s = .next { s with cycles := 2 })

/-- R191: the padding byte skipped unread, then `Service(BRK)` with bit 4 of the pushed status set. -/
def Obligations.BrkTakesSoftwareInterrupt : Prop :=
  ∀ s : State, encode .brk = [0x00] ∧ ∃ t, exec .brk s = .next t ∧ t.cycles = 7 ∧ Serviced (s.pc + 1) true 0xFFFE s t

/-- R197: the illegal opcode halts the core with PC back at it, reporting 0 cycles; nothing else changes. -/
def Obligations.IllegalOpcodeHalts : Prop :=
  ∀ (b : Byte) (s : State), exec (.ill b) s = .next { s with pc := s.pc - 1, halted := true, cycles := 0 }

/-- R198, the open alternative, for every value of its two OPEN parameters: PC past the skipped bytes, nothing else. -/
def Obligations.IllegalOpcodeAsNop : Prop :=
  ∀ (b : Byte) (s : State), ∃ skip : Nat, skip ≤ 2 ∧ skip = (Config.illegalSkip b).val ∧
    illegalOpcode .nop b s =
      .next { s with pc := BitVec.ofNat 16 (s.pc.toNat + skip), cycles := Config.illegalCycles b }

/-! ### Supplied instructions -/

/-- R202, R203, R204: V and the register are unchanged, the old C is not read. -/
def Obligations.ComparesSetCarryZeroNegative : Prop :=
  (∀ (o : AluOperand) (s : State),
    let m := operandValue o.toRead s
    opcodeOf (.cmp o) = o.pick 0xC9 0xC5 0xD5 0xCD 0xDD 0xD9 0xC1 0xD1 ∧
    exec (.cmp o) s = .next { busAfter s (readAccesses o.toRead s) with
      flags := { s.flags with c := decide (m.toNat ≤ s.a.toNat), z := decide (s.a = m), n := bitOf (s.a - m) 7 }
      cycles := readCycles o.toRead s }) ∧
  (∀ (o : CmpOperand) (s : State),
    let m := operandValue o.toRead s
    opcodeOf (.cpx o) = o.pick 0xE0 0xE4 0xEC ∧ opcodeOf (.cpy o) = o.pick 0xC0 0xC4 0xCC ∧
    exec (.cpx o) s = .next { busAfter s (readAccesses o.toRead s) with
      flags := { s.flags with c := decide (m.toNat ≤ s.x.toNat), z := decide (s.x = m), n := bitOf (s.x - m) 7 }
      cycles := readCycles o.toRead s } ∧
    exec (.cpy o) s = .next { busAfter s (readAccesses o.toRead s) with
      flags := { s.flags with c := decide (m.toNat ≤ s.y.toNat), z := decide (s.y = m), n := bitOf (s.y - m) 7 }
      cycles := readCycles o.toRead s })

/-- R205, R206: one read, one write at the same address; C and V are not written. -/
def Obligations.IncDecStepMemoryByte : Prop :=
  ∀ (o : IncOperand) (s : State),
    let f : RmwForm := .mem o.toAddr
    let up : Byte := BitVec.ofNat 8 ((rmwValue f s).toNat + 1)
    let down : Byte := BitVec.ofNat 8 ((rmwValue f s).toNat + 255)
    opcodeOf (.inc o) = o.pick 0xE6 0xF6 0xEE 0xFE ∧
    opcodeOf (.dec o) = o.pick 0xC6 0xD6 0xCE 0xDE ∧
    (∃ t, exec (.inc o) s = .next t ∧ StoredOnly (address o.toAddr s) up s t ∧
      t = { busAfter s (rmwAccesses f up s) with
        flags := withZN s.flags up
        cycles := rmwCycles f }) ∧
    (∃ t, exec (.dec o) s = .next t ∧ StoredOnly (address o.toAddr s) down s t ∧
      t = { busAfter s (rmwAccesses f down s) with
        flags := withZN s.flags down
        cycles := rmwCycles f })

/-- R207 to R210. -/
def Obligations.IndexRegistersStep : Prop :=
  ∀ s : State,
    (encode .inx = [0xE8] ∧ ∃ r : Byte, r.toNat = (s.x.toNat + 1) % 256 ∧
      exec .inx s = .next { s with x := r, flags := withZN s.flags r, cycles := 2 }) ∧
    (encode .iny = [0xC8] ∧ ∃ r : Byte, r.toNat = (s.y.toNat + 1) % 256 ∧
      exec .iny s = .next { s with y := r, flags := withZN s.flags r, cycles := 2 }) ∧
    (encode .dex = [0xCA] ∧ ∃ r : Byte, r.toNat = (s.x.toNat + 255) % 256 ∧
      exec .dex s = .next { s with x := r, flags := withZN s.flags r, cycles := 2 }) ∧
    (encode .dey = [0x88] ∧ ∃ r : Byte, r.toNat = (s.y.toNat + 255) % 256 ∧
      exec .dey s = .next { s with y := r, flags := withZN s.flags r, cycles := 2 })

/-- R211 to R214. -/
def Obligations.RegisterTransfersSetZN : Prop :=
  ∀ s : State,
    (encode .tax = [0xAA] ∧ exec .tax s = .next { s with x := s.a, flags := withZN s.flags s.a, cycles := 2 }) ∧
    (encode .tay = [0xA8] ∧ exec .tay s = .next { s with y := s.a, flags := withZN s.flags s.a, cycles := 2 }) ∧
    (encode .txa = [0x8A] ∧ exec .txa s = .next { s with a := s.x, flags := withZN s.flags s.x, cycles := 2 }) ∧
    (encode .tya = [0x98] ∧ exec .tya s = .next { s with a := s.y, flags := withZN s.flags s.y, cycles := 2 })

/-- R215, R242: status, PC low, PC high; PC is not incremented. -/
def Obligations.RtiRestoresStatusAndPc : Prop :=
  ∀ s : State,
    encode .rti = [0x40] ∧
    let p := s.peek (popAddr s.sp 1)
    exec .rti s = .next { busAfter s (readsOf s [popAddr s.sp 1, popAddr s.sp 2, popAddr s.sp 3]) with
      pc := BitVec.ofNat 16 (wordAt (accessed s (.read (popAddr s.sp 1) p)) (popAddr s.sp 2) (popAddr s.sp 3))
      sp := s.sp + 3
      flags := pulledFlags s.flags p
      cycles := 6 }

/-! ### Interrupts, reset, the step -/

/-- R238: the service sequence of each kind, with its vector and push source (R230, R240). -/
def Obligations.ServiceSequencePushesAndVectors : Prop :=
  ∀ s : State, Serviced s.pc false 0xFFFA s (s.service .nmi) ∧ Serviced s.pc false 0xFFFE s (s.service .irq) ∧
    Serviced s.pc true 0xFFFE s (s.service .brk)

/-- R215, R238, R242: RTI after a service sequence of any kind resumes at the pushed PC with every flag and SP as before, if
the stack page is RAM. -/
def Obligations.RtiUndoesServiceSequence : Prop :=
  ∀ (k : IntKind) (s : State), StackIsRam s → ∃ t, exec .rti (s.service k) = .next t ∧
    t.pc = s.pc ∧ t.sp = s.sp ∧ t.flags = s.flags ∧ t.a = s.a ∧ t.x = s.x ∧ t.y = s.y

/-- R236 case 1, R270: a pending reset is taken before anything else, whatever the rest of the state. -/
def Obligations.PendingResetRunsResetSequence : Prop :=
  ∀ s : State, s.resPending = true → step s = .next (afterReset s)

/-- R39, R271: the first step of every machine is the reset sequence; from an empty bus it leaves State.reset. The value
0xFD of SP_RESET and the zero of an unlisted byte are the model's choices: notes/assumptions/1.md, 2.md and 4.md. -/
def Obligations.FirstStepLeavesResetState : Prop :=
  ∀ (r : Snapshot) (mem : Memory) (ws : List Window) (device : Nat) (irq : Bool),
    step (State.constructed r mem ws device irq) = .next (afterReset (State.constructed r mem ws device irq)) ∧
    step (State.constructed r [] [] 0 false) = .next State.reset

/-- R236 case 2, R249: a halted core changes no state, makes no bus access and reports 0 cycles until a reset. -/
def Obligations.HaltedStepChangesNothing : Prop :=
  ∀ s : State, s.resPending = false → s.halted = true → step s = .next { s with busLog := [], cycles := 0 }

/-- R236 case 3, R237, R239, R246: a pending NMI, whatever I is. -/
def Obligations.PendingNmiIsServiced : Prop :=
  ∀ s : State, s.resPending = false → s.halted = false → s.nmiPending = true →
    ∃ t, step s = .next t ∧ t.cycles = 7 ∧ Serviced s.pc false 0xFFFA { s with nmiPending := false, busLog := [] } t

/-- R236 case 4, R233, R239, R246: an asserted IRQ with I clear, no NMI pending. -/
def Obligations.UnmaskedIrqIsServiced : Prop :=
  ∀ s : State, s.resPending = false → s.halted = false → s.nmiPending = false → s.irqLine = true →
    s.flags.i = false →
    ∃ t, step s = .next t ∧ t.cycles = 7 ∧ Serviced s.pc false 0xFFFE { s with busLog := [] } t

/-- R236 case 5, R47, R67, R248: otherwise the bytes at PC are read in order, once each, and the instruction they decode to
is executed, with PC past them. -/
def Obligations.StepRunsDecodedInstruction : Prop :=
  ∀ (s : State) (i : Instr) (rest : List Byte),
    s.resPending = false → s.halted = false → s.nmiPending = false → (s.irqLine = false ∨ s.flags.i = true) →
    decode (streamBytes s) = .ok (i, rest) →
    let start := { s with busLog := [], cycles := 0 }
    step s = exec i { busAfter start (fetchReads start (encode i).length) with
      pc := s.pc + BitVec.ofNat 16 (encode i).length }

/-- R42, R63, R248: "the step operation never fails": from every state there is a next one. -/
def Obligations.EveryStepHasNextState : Prop :=
  ∀ s : State, ∃ t, step s = .next t

/-- R34, R237, R248: a step that services an event is in that Servicing state, BRK found by the decoder in the same step. -/
def Obligations.FsmReportsServicedEvent : Prop :=
  ∀ s : State,
    (s.fsmDuring = .servicingReset ↔ s.resPending = true) ∧
    (s.fsmDuring = .servicingNmi ↔ s.resPending = false ∧ s.halted = false ∧ s.nmiPending = true) ∧
    (s.fsmDuring = .servicingIrq ↔
      s.resPending = false ∧ s.halted = false ∧ s.nmiPending = false ∧ s.irqLine = true ∧ s.flags.i = false) ∧
    (s.fsmDuring = .servicingBrk ↔
      s.resPending = false ∧ s.halted = false ∧ s.nmiPending = false ∧ (s.irqLine = false ∨ s.flags.i = true) ∧
        s.peek s.pc = 0x00)

/-! ### Invariants and whole-machine rules -/

/-- R54: every step keeps the RAM in canonical form (the model's own invariant, notes/assumptions/4.md). -/
def Obligations.StepKeepsMemoryCanonical : Prop :=
  ∀ s t : State, BusCanonical s → step s = .next t → BusCanonical t

/-- The canonical form holds right after reset. -/
def Obligations.ResetMemoryIsCanonical : Prop := BusCanonical State.reset

/-- R48, R49: in the list of bus accesses of a step every read returns what the bus gives at that moment, and the list,
done again from where the step began, gives the RAM, the device state, the IRQ line and the NMI latch after the step. -/
def Obligations.StepIsItsBusAccesses : Prop :=
  ∀ s t : State, step s = .next t →
    ∃ u, replay t.busLog { s with nmiPending := latchAtStart s } = some u ∧
      t.mem = u.mem ∧ t.device = u.device ∧ t.irqLine = u.irqLine ∧ t.nmiPending = u.nmiPending

/-- R23, D5: outside reset the stored Break flag is neither read nor written by any step. -/
def Obligations.BreakFlagIsInert : Prop :=
  ∀ (s t : State) (v : Bool), s.resPending = false → step s = .next t →
    step (s.hostSetFlag .b v) = .next (t.hostSetFlag .b v) ∧ t.flags.b = s.flags.b

/-- R33, R197, R249: only the fetch of an illegal opcode halts, only a reset ends it. -/
def Obligations.OnlyIllegalOpcodesHalt : Prop :=
  ∀ s t : State, step s = .next t →
    (t.halted = true ↔ s.resPending = false ∧
      (s.halted = true ∨
        (s.nmiPending = false ∧ (s.irqLine = false ∨ s.flags.i = true) ∧ s.peek s.pc ∈ illegalBytes)))

/-- R30 to R32, R232, R233: the NMI latch is cleared exactly by the step that services it, the reset latch by the reset; CORE
does not write the IRQ line, and only a device's reaction to an access sets or drives either. -/
def Obligations.PendingLatchesAcrossStep : Prop :=
  ∀ s t : State, step s = .next t →
    let u := busAfter { s with nmiPending := latchAtStart s } t.busLog
    t.resPending = false ∧ t.windows = s.windows ∧ t.irqLine = u.irqLine ∧ t.nmiPending = u.nmiPending ∧
      (s.windows = [] → t.irqLine = s.irqLine ∧
        (t.nmiPending = true ↔ s.nmiPending = true ∧ (s.resPending = true ∨ s.halted = true)))

/-- R233: with I set, the level of the IRQ line changes nothing but itself. -/
def Obligations.MaskedIrqLineIsUnseen : Prop :=
  ∀ (s t : State) (level : Bool), s.flags.i = true → step s = .next t →
    ∃ after : Bool, step (s.hostSetIrqLine level) = .next (t.hostSetIrqLine after) ∧ (s.windows = [] → after = level)

/-- R65, R68, R246, R249: the cycle count a step reports: at most 7, and 0 exactly when the core is left halted. -/
def Obligations.CycleCountBounds : Prop :=
  ∀ s t : State, step s = .next t → t.cycles ≤ 7 ∧ (t.cycles = 0 ↔ t.halted = true) ∧ t.cycles ≠ 1

/-! ### The host -/

/-- R38, D28: restore writes exactly the twelve values of a snapshot. -/
def Obligations.RestoreWritesTwelveValues : Prop :=
  ∀ (s : State) (r : Snapshot), (s.restore r).snapshot = r ∧
    s.restore r = { s with pc := r.pc, sp := r.sp, a := r.a, x := r.x, y := r.y, flags := r.flags } ∧
    s.restore s.snapshot = s

/-- R37: `set` writes exactly the named register or flag. -/
def Obligations.HostSetWritesOneField : Prop :=
  ∀ (s : State) (w : Word) (q : Bool),
    s.hostSet .pc w = { s with pc := w } ∧
    s.hostSet .sp w = { s with sp := BitVec.ofNat 8 w.toNat } ∧
    s.hostSet .a w = { s with a := BitVec.ofNat 8 w.toNat } ∧
    s.hostSet .x w = { s with x := BitVec.ofNat 8 w.toNat } ∧
    s.hostSet .y w = { s with y := BitVec.ofNat 8 w.toNat } ∧
    (∀ f : HostFlag, (s.hostSetFlag f q).hostGetFlag f = q ∧
      (∀ g : HostFlag, g ≠ f → (s.hostSetFlag f q).hostGetFlag g = s.hostGetFlag g) ∧
      s.hostSetFlag f q = { s with flags := (s.hostSetFlag f q).flags })

/-! ### The bus -/

/-- R5, R9, R41, R50, R54, R55: an access at a device's address gives the device's byte and leads to the device's reaction,
any other is one of the RAM; on a bus without devices nothing but the RAM and the list changes; and reads change no RAM. -/
def Obligations.BusAccessReachesRamOrDevice : Prop :=
  ∀ (s : State) (a : Word) (v : Byte),
    s.memRead a = (s.peek a, accessed s (.read a (s.peek a))) ∧ s.memWrite a v = accessed s (.write a v) ∧
    (s.hasDevice a = true ↔ ∃ w ∈ s.windows, w.first ≤ a.toNat ∧ a.toNat ≤ w.last) ∧
    (s.hasDevice a = true → s.peek a = (Config.deviceRead s.device a).1) ∧
    (s.hasDevice a = false → s.peek a = s.mem.read a.toNat ∧ (s.memWrite a v).peek a = v) ∧
    (∀ es : List BusAccess,
      let u := busAfter s es
      u = { s with
        mem := u.mem, device := u.device, irqLine := u.irqLine, nmiPending := u.nmiPending, busLog := s.busLog ++ es } ∧
      (s.windows = [] → u = { s with mem := u.mem, busLog := s.busLog ++ es })) ∧
    (∀ addrs : List Word, (busAfter s (readsOf s addrs)).mem = s.mem)
end

