-- ==== Sys2Proof/Laws/Memory.lean ====
section
/-! SUPPORT. The bus contents: a read after a write, that every operation keeps the canonical form, and that two memories in
canonical form with the same bytes are equal. -/

namespace Sys2Proof.Machine.Memory

variable {m m' : Memory} {a b lo : Nat} {v : Byte}

theorem read_erase_same (m : Memory) (a : Nat) : read (erase a m) a = Config.unlisted := by
  induction m with
  | nil => rfl
  | cons c m ih => by_cases h : c.1 = a <;> simp [erase, read, h, ih]

theorem read_erase_other (m : Memory) (h : b ≠ a) : read (erase a m) b = read m b := by
  induction m with
  | nil => rfl
  | cons c m ih =>
    by_cases hc : c.1 = a
    · have hb : c.1 ≠ b := by omega
      simp [erase, read, hc, ih, hc ▸ hb]
    · simp [erase, read, hc, ih]

theorem read_insert_same (m : Memory) (h : read m a = Config.unlisted) (hf : erase a m = m) :
    read (insert a v m) a = v := by
  induction m with
  | nil => simp [insert, read]
  | cons c m ih =>
    by_cases hc : c.1 = a
    · have hlen : (erase a m).length ≤ m.length := by
        clear ih h hf
        induction m with
        | nil => simp [erase]
        | cons d m ih => by_cases hd : d.1 = a <;> simp [erase, hd] <;> omega
      have := congrArg List.length hf
      simp [erase, hc] at this
      omega
    · by_cases hlt : a < c.1
      · simp [insert, read, hlt]
      · simp only [erase, hc, if_false, List.cons.injEq, true_and] at hf
        simp only [read, hc, if_false] at h
        simp [insert, read, hlt, hc, ih h hf]

theorem read_insert_other (m : Memory) (h : b ≠ a) : read (insert a v m) b = read m b := by
  induction m with
  | nil => simp [insert, read, Ne.symm h]
  | cons c m ih => by_cases hc : a < c.1 <;> simp [insert, read, hc, ih, Ne.symm h]

theorem erase_erase (m : Memory) (a : Nat) : erase a (erase a m) = erase a m := by
  induction m with
  | nil => rfl
  | cons c m ih => by_cases h : c.1 = a <;> simp [erase, h, ih]

/-- R54: a read of the address written gives the byte written. -/
@[simp] theorem read_write_same (m : Memory) (a : Nat) (v : Byte) : read (write m a v) a = v := by
  unfold write
  split
  · rename_i h
    rw [read_erase_same, h]
  · exact read_insert_same _ (read_erase_same m a) (erase_erase m a)

/-- R54: a write leaves every other address alone. -/
theorem read_write_other (m : Memory) (v : Byte) (h : b ≠ a) : read (write m a v) b = read m b := by
  unfold write
  split
  · exact read_erase_other m h
  · rw [read_insert_other _ h, read_erase_other m h]

theorem wfFrom_mono (h : wfFrom b m = true) (hab : a ≤ b) : wfFrom a m = true := by
  cases m with
  | nil => rfl
  | cons c m => simp [wfFrom] at h ⊢; exact ⟨⟨⟨by omega, h.1.1.2⟩, h.1.2⟩, h.2⟩

theorem wfFrom_erase (h : wfFrom lo m = true) : wfFrom lo (erase a m) = true := by
  induction m generalizing lo with
  | nil => rfl
  | cons c m ih =>
    simp only [wfFrom, Bool.and_eq_true, decide_eq_true_eq] at h
    by_cases hc : c.1 = a
    · simpa [erase, hc] using wfFrom_mono (ih h.2) (by omega)
    · simpa [erase, hc, wfFrom, h.1] using ih h.2

theorem wfFrom_insert (h : wfFrom lo m = true) (hn : erase a m = m) (hlo : lo ≤ a) (ha : a < 65536)
    (hv : v ≠ Config.unlisted) : wfFrom lo (insert a v m) = true := by
  induction m generalizing lo with
  | nil => simp [insert, wfFrom, hlo, ha, hv]
  | cons c m ih =>
    simp only [wfFrom, Bool.and_eq_true, decide_eq_true_eq] at h
    by_cases hlt : a < c.1
    · simp only [insert, hlt, if_true, wfFrom, Bool.and_eq_true, decide_eq_true_eq]
      exact ⟨⟨⟨hlo, ha⟩, hv⟩, ⟨⟨by omega, h.1.1.2⟩, h.1.2⟩, h.2⟩
    · by_cases hc : c.1 = a
      · have := congrArg (fun l => read l a) hn
        simp [read_erase_same, read, hc] at this
        exact absurd this.symm h.1.2
      · simp only [erase, hc, if_false, List.cons.injEq, true_and] at hn
        simp only [insert, hlt, if_false, wfFrom, Bool.and_eq_true, decide_eq_true_eq]
        exact ⟨h.1, ih h.2 hn (by omega)⟩

/-- A write at an address of the 65536 keeps the canonical form. -/
theorem wf_write (h : wf m = true) (ha : a < 65536) (v : Byte) : wf (write m a v) = true := by
  unfold write
  split
  · exact wfFrom_erase h
  · rename_i hv
    exact wfFrom_insert (wfFrom_erase h) (erase_erase m a) (Nat.zero_le a) ha hv

theorem read_below (h : wfFrom lo m = true) (hb : b < lo) : read m b = Config.unlisted := by
  induction m generalizing lo with
  | nil => rfl
  | cons c m ih =>
    simp only [wfFrom, Bool.and_eq_true, decide_eq_true_eq] at h
    have : c.1 ≠ b := by omega
    simpa [read, this] using ih h.2 (by omega)

theorem ext_from (h : wfFrom lo m = true) (h' : wfFrom lo m' = true) (hr : ∀ a, read m a = read m' a) : m = m' := by
  induction m generalizing lo m' with
  | nil =>
    cases m' with
    | nil => rfl
    | cons d m' =>
      simp only [wfFrom, Bool.and_eq_true, decide_eq_true_eq] at h'
      exact absurd (by simpa [read] using (hr d.1).symm) h'.1.2
  | cons c m ih =>
    simp only [wfFrom, Bool.and_eq_true, decide_eq_true_eq] at h
    cases m' with
    | nil => exact absurd (by simpa [read] using hr c.1) h.1.2
    | cons d m' =>
      simp only [wfFrom, Bool.and_eq_true, decide_eq_true_eq] at h'
      have key : c.1 = d.1 := by
        rcases Nat.lt_trichotomy c.1 d.1 with hlt | heq | hgt
        · have hc := hr c.1
          simp [read, Nat.ne_of_gt hlt, read_below h'.2 (show c.1 < d.1 + 1 by omega)] at hc
          exact absurd hc h.1.2
        · exact heq
        · have hd := hr d.1
          simp [read, Nat.ne_of_gt hgt, read_below h.2 (show d.1 < c.1 + 1 by omega)] at hd
          exact absurd hd.symm h'.1.2
      have val : c.2 = d.2 := by simpa [read, key] using hr c.1
      have hcd : c = d := Prod.ext key val
      subst hcd
      rw [ih h.2 h'.2]
      intro a
      by_cases ha : c.1 = a
      · rw [read_below h.2 (by omega), read_below h'.2 (by omega)]
      · simpa [read, ha] using hr a

/-- Memories in canonical form that hold the same bytes are equal. -/
theorem ext_of_wf (h : wf m = true) (h' : wf m' = true) (hr : ∀ a, read m a = read m' a) : m = m' := ext_from h h' hr

end Sys2Proof.Machine.Memory
end

