-- ==== Sys2Proof/Laws/State.lean ====
section
/-! SUPPORT. One lemma per field per update of State, so that no later proof unfolds a record update; the same for the two bus
primitives and the two stack primitives. -/

namespace Sys2Proof.Machine.State

variable (s : State)

@[simp] theorem setA_pc (v : Byte) : (s.setA v).pc = s.pc := rfl
@[simp] theorem setA_sp (v : Byte) : (s.setA v).sp = s.sp := rfl
@[simp] theorem setA_a (v : Byte) : (s.setA v).a = v := rfl
@[simp] theorem setA_x (v : Byte) : (s.setA v).x = s.x := rfl
@[simp] theorem setA_y (v : Byte) : (s.setA v).y = s.y := rfl
@[simp] theorem setA_flags (v : Byte) : (s.setA v).flags = s.flags := rfl
@[simp] theorem setA_nmiPending (v : Byte) : (s.setA v).nmiPending = s.nmiPending := rfl
@[simp] theorem setA_resPending (v : Byte) : (s.setA v).resPending = s.resPending := rfl
@[simp] theorem setA_halted (v : Byte) : (s.setA v).halted = s.halted := rfl
@[simp] theorem setA_irqLine (v : Byte) : (s.setA v).irqLine = s.irqLine := rfl
@[simp] theorem setA_mem (v : Byte) : (s.setA v).mem = s.mem := rfl
@[simp] theorem setA_windows (v : Byte) : (s.setA v).windows = s.windows := rfl
@[simp] theorem setA_device (v : Byte) : (s.setA v).device = s.device := rfl
@[simp] theorem setA_busLog (v : Byte) : (s.setA v).busLog = s.busLog := rfl
@[simp] theorem setA_cycles (v : Byte) : (s.setA v).cycles = s.cycles := rfl

@[simp] theorem setX_pc (v : Byte) : (s.setX v).pc = s.pc := rfl
@[simp] theorem setX_sp (v : Byte) : (s.setX v).sp = s.sp := rfl
@[simp] theorem setX_a (v : Byte) : (s.setX v).a = s.a := rfl
@[simp] theorem setX_x (v : Byte) : (s.setX v).x = v := rfl
@[simp] theorem setX_y (v : Byte) : (s.setX v).y = s.y := rfl
@[simp] theorem setX_flags (v : Byte) : (s.setX v).flags = s.flags := rfl
@[simp] theorem setX_nmiPending (v : Byte) : (s.setX v).nmiPending = s.nmiPending := rfl
@[simp] theorem setX_resPending (v : Byte) : (s.setX v).resPending = s.resPending := rfl
@[simp] theorem setX_halted (v : Byte) : (s.setX v).halted = s.halted := rfl
@[simp] theorem setX_irqLine (v : Byte) : (s.setX v).irqLine = s.irqLine := rfl
@[simp] theorem setX_mem (v : Byte) : (s.setX v).mem = s.mem := rfl
@[simp] theorem setX_windows (v : Byte) : (s.setX v).windows = s.windows := rfl
@[simp] theorem setX_device (v : Byte) : (s.setX v).device = s.device := rfl
@[simp] theorem setX_busLog (v : Byte) : (s.setX v).busLog = s.busLog := rfl
@[simp] theorem setX_cycles (v : Byte) : (s.setX v).cycles = s.cycles := rfl

@[simp] theorem setY_pc (v : Byte) : (s.setY v).pc = s.pc := rfl
@[simp] theorem setY_sp (v : Byte) : (s.setY v).sp = s.sp := rfl
@[simp] theorem setY_a (v : Byte) : (s.setY v).a = s.a := rfl
@[simp] theorem setY_x (v : Byte) : (s.setY v).x = s.x := rfl
@[simp] theorem setY_y (v : Byte) : (s.setY v).y = v := rfl
@[simp] theorem setY_flags (v : Byte) : (s.setY v).flags = s.flags := rfl
@[simp] theorem setY_nmiPending (v : Byte) : (s.setY v).nmiPending = s.nmiPending := rfl
@[simp] theorem setY_resPending (v : Byte) : (s.setY v).resPending = s.resPending := rfl
@[simp] theorem setY_halted (v : Byte) : (s.setY v).halted = s.halted := rfl
@[simp] theorem setY_irqLine (v : Byte) : (s.setY v).irqLine = s.irqLine := rfl
@[simp] theorem setY_mem (v : Byte) : (s.setY v).mem = s.mem := rfl
@[simp] theorem setY_windows (v : Byte) : (s.setY v).windows = s.windows := rfl
@[simp] theorem setY_device (v : Byte) : (s.setY v).device = s.device := rfl
@[simp] theorem setY_busLog (v : Byte) : (s.setY v).busLog = s.busLog := rfl
@[simp] theorem setY_cycles (v : Byte) : (s.setY v).cycles = s.cycles := rfl

@[simp] theorem setSp_pc (v : Byte) : (s.setSp v).pc = s.pc := rfl
@[simp] theorem setSp_sp (v : Byte) : (s.setSp v).sp = v := rfl
@[simp] theorem setSp_a (v : Byte) : (s.setSp v).a = s.a := rfl
@[simp] theorem setSp_x (v : Byte) : (s.setSp v).x = s.x := rfl
@[simp] theorem setSp_y (v : Byte) : (s.setSp v).y = s.y := rfl
@[simp] theorem setSp_flags (v : Byte) : (s.setSp v).flags = s.flags := rfl
@[simp] theorem setSp_nmiPending (v : Byte) : (s.setSp v).nmiPending = s.nmiPending := rfl
@[simp] theorem setSp_resPending (v : Byte) : (s.setSp v).resPending = s.resPending := rfl
@[simp] theorem setSp_halted (v : Byte) : (s.setSp v).halted = s.halted := rfl
@[simp] theorem setSp_irqLine (v : Byte) : (s.setSp v).irqLine = s.irqLine := rfl
@[simp] theorem setSp_mem (v : Byte) : (s.setSp v).mem = s.mem := rfl
@[simp] theorem setSp_windows (v : Byte) : (s.setSp v).windows = s.windows := rfl
@[simp] theorem setSp_device (v : Byte) : (s.setSp v).device = s.device := rfl
@[simp] theorem setSp_busLog (v : Byte) : (s.setSp v).busLog = s.busLog := rfl
@[simp] theorem setSp_cycles (v : Byte) : (s.setSp v).cycles = s.cycles := rfl

@[simp] theorem setPc_pc (w : Word) : (s.setPc w).pc = w := rfl
@[simp] theorem setPc_sp (w : Word) : (s.setPc w).sp = s.sp := rfl
@[simp] theorem setPc_a (w : Word) : (s.setPc w).a = s.a := rfl
@[simp] theorem setPc_x (w : Word) : (s.setPc w).x = s.x := rfl
@[simp] theorem setPc_y (w : Word) : (s.setPc w).y = s.y := rfl
@[simp] theorem setPc_flags (w : Word) : (s.setPc w).flags = s.flags := rfl
@[simp] theorem setPc_nmiPending (w : Word) : (s.setPc w).nmiPending = s.nmiPending := rfl
@[simp] theorem setPc_resPending (w : Word) : (s.setPc w).resPending = s.resPending := rfl
@[simp] theorem setPc_halted (w : Word) : (s.setPc w).halted = s.halted := rfl
@[simp] theorem setPc_irqLine (w : Word) : (s.setPc w).irqLine = s.irqLine := rfl
@[simp] theorem setPc_mem (w : Word) : (s.setPc w).mem = s.mem := rfl
@[simp] theorem setPc_windows (w : Word) : (s.setPc w).windows = s.windows := rfl
@[simp] theorem setPc_device (w : Word) : (s.setPc w).device = s.device := rfl
@[simp] theorem setPc_busLog (w : Word) : (s.setPc w).busLog = s.busLog := rfl
@[simp] theorem setPc_cycles (w : Word) : (s.setPc w).cycles = s.cycles := rfl

@[simp] theorem setFlags_pc (f : Flags) : (s.setFlags f).pc = s.pc := rfl
@[simp] theorem setFlags_sp (f : Flags) : (s.setFlags f).sp = s.sp := rfl
@[simp] theorem setFlags_a (f : Flags) : (s.setFlags f).a = s.a := rfl
@[simp] theorem setFlags_x (f : Flags) : (s.setFlags f).x = s.x := rfl
@[simp] theorem setFlags_y (f : Flags) : (s.setFlags f).y = s.y := rfl
@[simp] theorem setFlags_flags (f : Flags) : (s.setFlags f).flags = f := rfl
@[simp] theorem setFlags_nmiPending (f : Flags) : (s.setFlags f).nmiPending = s.nmiPending := rfl
@[simp] theorem setFlags_resPending (f : Flags) : (s.setFlags f).resPending = s.resPending := rfl
@[simp] theorem setFlags_halted (f : Flags) : (s.setFlags f).halted = s.halted := rfl
@[simp] theorem setFlags_irqLine (f : Flags) : (s.setFlags f).irqLine = s.irqLine := rfl
@[simp] theorem setFlags_mem (f : Flags) : (s.setFlags f).mem = s.mem := rfl
@[simp] theorem setFlags_windows (f : Flags) : (s.setFlags f).windows = s.windows := rfl
@[simp] theorem setFlags_device (f : Flags) : (s.setFlags f).device = s.device := rfl
@[simp] theorem setFlags_busLog (f : Flags) : (s.setFlags f).busLog = s.busLog := rfl
@[simp] theorem setFlags_cycles (f : Flags) : (s.setFlags f).cycles = s.cycles := rfl

@[simp] theorem setNmiPending_pc (p : Bool) : (s.setNmiPending p).pc = s.pc := rfl
@[simp] theorem setNmiPending_sp (p : Bool) : (s.setNmiPending p).sp = s.sp := rfl
@[simp] theorem setNmiPending_a (p : Bool) : (s.setNmiPending p).a = s.a := rfl
@[simp] theorem setNmiPending_x (p : Bool) : (s.setNmiPending p).x = s.x := rfl
@[simp] theorem setNmiPending_y (p : Bool) : (s.setNmiPending p).y = s.y := rfl
@[simp] theorem setNmiPending_flags (p : Bool) : (s.setNmiPending p).flags = s.flags := rfl
@[simp] theorem setNmiPending_nmiPending (p : Bool) : (s.setNmiPending p).nmiPending = p := rfl
@[simp] theorem setNmiPending_resPending (p : Bool) : (s.setNmiPending p).resPending = s.resPending := rfl
@[simp] theorem setNmiPending_halted (p : Bool) : (s.setNmiPending p).halted = s.halted := rfl
@[simp] theorem setNmiPending_irqLine (p : Bool) : (s.setNmiPending p).irqLine = s.irqLine := rfl
@[simp] theorem setNmiPending_mem (p : Bool) : (s.setNmiPending p).mem = s.mem := rfl
@[simp] theorem setNmiPending_windows (p : Bool) : (s.setNmiPending p).windows = s.windows := rfl
@[simp] theorem setNmiPending_device (p : Bool) : (s.setNmiPending p).device = s.device := rfl
@[simp] theorem setNmiPending_busLog (p : Bool) : (s.setNmiPending p).busLog = s.busLog := rfl
@[simp] theorem setNmiPending_cycles (p : Bool) : (s.setNmiPending p).cycles = s.cycles := rfl

@[simp] theorem setResPending_pc (p : Bool) : (s.setResPending p).pc = s.pc := rfl
@[simp] theorem setResPending_sp (p : Bool) : (s.setResPending p).sp = s.sp := rfl
@[simp] theorem setResPending_a (p : Bool) : (s.setResPending p).a = s.a := rfl
@[simp] theorem setResPending_x (p : Bool) : (s.setResPending p).x = s.x := rfl
@[simp] theorem setResPending_y (p : Bool) : (s.setResPending p).y = s.y := rfl
@[simp] theorem setResPending_flags (p : Bool) : (s.setResPending p).flags = s.flags := rfl
@[simp] theorem setResPending_nmiPending (p : Bool) : (s.setResPending p).nmiPending = s.nmiPending := rfl
@[simp] theorem setResPending_resPending (p : Bool) : (s.setResPending p).resPending = p := rfl
@[simp] theorem setResPending_halted (p : Bool) : (s.setResPending p).halted = s.halted := rfl
@[simp] theorem setResPending_irqLine (p : Bool) : (s.setResPending p).irqLine = s.irqLine := rfl
@[simp] theorem setResPending_mem (p : Bool) : (s.setResPending p).mem = s.mem := rfl
@[simp] theorem setResPending_windows (p : Bool) : (s.setResPending p).windows = s.windows := rfl
@[simp] theorem setResPending_device (p : Bool) : (s.setResPending p).device = s.device := rfl
@[simp] theorem setResPending_busLog (p : Bool) : (s.setResPending p).busLog = s.busLog := rfl
@[simp] theorem setResPending_cycles (p : Bool) : (s.setResPending p).cycles = s.cycles := rfl

@[simp] theorem setHalted_pc (p : Bool) : (s.setHalted p).pc = s.pc := rfl
@[simp] theorem setHalted_sp (p : Bool) : (s.setHalted p).sp = s.sp := rfl
@[simp] theorem setHalted_a (p : Bool) : (s.setHalted p).a = s.a := rfl
@[simp] theorem setHalted_x (p : Bool) : (s.setHalted p).x = s.x := rfl
@[simp] theorem setHalted_y (p : Bool) : (s.setHalted p).y = s.y := rfl
@[simp] theorem setHalted_flags (p : Bool) : (s.setHalted p).flags = s.flags := rfl
@[simp] theorem setHalted_nmiPending (p : Bool) : (s.setHalted p).nmiPending = s.nmiPending := rfl
@[simp] theorem setHalted_resPending (p : Bool) : (s.setHalted p).resPending = s.resPending := rfl
@[simp] theorem setHalted_halted (p : Bool) : (s.setHalted p).halted = p := rfl
@[simp] theorem setHalted_irqLine (p : Bool) : (s.setHalted p).irqLine = s.irqLine := rfl
@[simp] theorem setHalted_mem (p : Bool) : (s.setHalted p).mem = s.mem := rfl
@[simp] theorem setHalted_windows (p : Bool) : (s.setHalted p).windows = s.windows := rfl
@[simp] theorem setHalted_device (p : Bool) : (s.setHalted p).device = s.device := rfl
@[simp] theorem setHalted_busLog (p : Bool) : (s.setHalted p).busLog = s.busLog := rfl
@[simp] theorem setHalted_cycles (p : Bool) : (s.setHalted p).cycles = s.cycles := rfl

@[simp] theorem setIrqLine_pc (p : Bool) : (s.setIrqLine p).pc = s.pc := rfl
@[simp] theorem setIrqLine_sp (p : Bool) : (s.setIrqLine p).sp = s.sp := rfl
@[simp] theorem setIrqLine_a (p : Bool) : (s.setIrqLine p).a = s.a := rfl
@[simp] theorem setIrqLine_x (p : Bool) : (s.setIrqLine p).x = s.x := rfl
@[simp] theorem setIrqLine_y (p : Bool) : (s.setIrqLine p).y = s.y := rfl
@[simp] theorem setIrqLine_flags (p : Bool) : (s.setIrqLine p).flags = s.flags := rfl
@[simp] theorem setIrqLine_nmiPending (p : Bool) : (s.setIrqLine p).nmiPending = s.nmiPending := rfl
@[simp] theorem setIrqLine_resPending (p : Bool) : (s.setIrqLine p).resPending = s.resPending := rfl
@[simp] theorem setIrqLine_halted (p : Bool) : (s.setIrqLine p).halted = s.halted := rfl
@[simp] theorem setIrqLine_irqLine (p : Bool) : (s.setIrqLine p).irqLine = p := rfl
@[simp] theorem setIrqLine_mem (p : Bool) : (s.setIrqLine p).mem = s.mem := rfl
@[simp] theorem setIrqLine_windows (p : Bool) : (s.setIrqLine p).windows = s.windows := rfl
@[simp] theorem setIrqLine_device (p : Bool) : (s.setIrqLine p).device = s.device := rfl
@[simp] theorem setIrqLine_busLog (p : Bool) : (s.setIrqLine p).busLog = s.busLog := rfl
@[simp] theorem setIrqLine_cycles (p : Bool) : (s.setIrqLine p).cycles = s.cycles := rfl

@[simp] theorem setMem_pc (m : Memory) : (s.setMem m).pc = s.pc := rfl
@[simp] theorem setMem_sp (m : Memory) : (s.setMem m).sp = s.sp := rfl
@[simp] theorem setMem_a (m : Memory) : (s.setMem m).a = s.a := rfl
@[simp] theorem setMem_x (m : Memory) : (s.setMem m).x = s.x := rfl
@[simp] theorem setMem_y (m : Memory) : (s.setMem m).y = s.y := rfl
@[simp] theorem setMem_flags (m : Memory) : (s.setMem m).flags = s.flags := rfl
@[simp] theorem setMem_nmiPending (m : Memory) : (s.setMem m).nmiPending = s.nmiPending := rfl
@[simp] theorem setMem_resPending (m : Memory) : (s.setMem m).resPending = s.resPending := rfl
@[simp] theorem setMem_halted (m : Memory) : (s.setMem m).halted = s.halted := rfl
@[simp] theorem setMem_irqLine (m : Memory) : (s.setMem m).irqLine = s.irqLine := rfl
@[simp] theorem setMem_mem (m : Memory) : (s.setMem m).mem = m := rfl
@[simp] theorem setMem_windows (m : Memory) : (s.setMem m).windows = s.windows := rfl
@[simp] theorem setMem_device (m : Memory) : (s.setMem m).device = s.device := rfl
@[simp] theorem setMem_busLog (m : Memory) : (s.setMem m).busLog = s.busLog := rfl
@[simp] theorem setMem_cycles (m : Memory) : (s.setMem m).cycles = s.cycles := rfl

@[simp] theorem setWindows_pc (ws : List Window) : (s.setWindows ws).pc = s.pc := rfl
@[simp] theorem setWindows_sp (ws : List Window) : (s.setWindows ws).sp = s.sp := rfl
@[simp] theorem setWindows_a (ws : List Window) : (s.setWindows ws).a = s.a := rfl
@[simp] theorem setWindows_x (ws : List Window) : (s.setWindows ws).x = s.x := rfl
@[simp] theorem setWindows_y (ws : List Window) : (s.setWindows ws).y = s.y := rfl
@[simp] theorem setWindows_flags (ws : List Window) : (s.setWindows ws).flags = s.flags := rfl
@[simp] theorem setWindows_nmiPending (ws : List Window) : (s.setWindows ws).nmiPending = s.nmiPending := rfl
@[simp] theorem setWindows_resPending (ws : List Window) : (s.setWindows ws).resPending = s.resPending := rfl
@[simp] theorem setWindows_halted (ws : List Window) : (s.setWindows ws).halted = s.halted := rfl
@[simp] theorem setWindows_irqLine (ws : List Window) : (s.setWindows ws).irqLine = s.irqLine := rfl
@[simp] theorem setWindows_mem (ws : List Window) : (s.setWindows ws).mem = s.mem := rfl
@[simp] theorem setWindows_windows (ws : List Window) : (s.setWindows ws).windows = ws := rfl
@[simp] theorem setWindows_device (ws : List Window) : (s.setWindows ws).device = s.device := rfl
@[simp] theorem setWindows_busLog (ws : List Window) : (s.setWindows ws).busLog = s.busLog := rfl
@[simp] theorem setWindows_cycles (ws : List Window) : (s.setWindows ws).cycles = s.cycles := rfl

@[simp] theorem setDevice_pc (d : Nat) : (s.setDevice d).pc = s.pc := rfl
@[simp] theorem setDevice_sp (d : Nat) : (s.setDevice d).sp = s.sp := rfl
@[simp] theorem setDevice_a (d : Nat) : (s.setDevice d).a = s.a := rfl
@[simp] theorem setDevice_x (d : Nat) : (s.setDevice d).x = s.x := rfl
@[simp] theorem setDevice_y (d : Nat) : (s.setDevice d).y = s.y := rfl
@[simp] theorem setDevice_flags (d : Nat) : (s.setDevice d).flags = s.flags := rfl
@[simp] theorem setDevice_nmiPending (d : Nat) : (s.setDevice d).nmiPending = s.nmiPending := rfl
@[simp] theorem setDevice_resPending (d : Nat) : (s.setDevice d).resPending = s.resPending := rfl
@[simp] theorem setDevice_halted (d : Nat) : (s.setDevice d).halted = s.halted := rfl
@[simp] theorem setDevice_irqLine (d : Nat) : (s.setDevice d).irqLine = s.irqLine := rfl
@[simp] theorem setDevice_mem (d : Nat) : (s.setDevice d).mem = s.mem := rfl
@[simp] theorem setDevice_windows (d : Nat) : (s.setDevice d).windows = s.windows := rfl
@[simp] theorem setDevice_device (d : Nat) : (s.setDevice d).device = d := rfl
@[simp] theorem setDevice_busLog (d : Nat) : (s.setDevice d).busLog = s.busLog := rfl
@[simp] theorem setDevice_cycles (d : Nat) : (s.setDevice d).cycles = s.cycles := rfl

@[simp] theorem setCycles_pc (k : Nat) : (s.setCycles k).pc = s.pc := rfl
@[simp] theorem setCycles_sp (k : Nat) : (s.setCycles k).sp = s.sp := rfl
@[simp] theorem setCycles_a (k : Nat) : (s.setCycles k).a = s.a := rfl
@[simp] theorem setCycles_x (k : Nat) : (s.setCycles k).x = s.x := rfl
@[simp] theorem setCycles_y (k : Nat) : (s.setCycles k).y = s.y := rfl
@[simp] theorem setCycles_flags (k : Nat) : (s.setCycles k).flags = s.flags := rfl
@[simp] theorem setCycles_nmiPending (k : Nat) : (s.setCycles k).nmiPending = s.nmiPending := rfl
@[simp] theorem setCycles_resPending (k : Nat) : (s.setCycles k).resPending = s.resPending := rfl
@[simp] theorem setCycles_halted (k : Nat) : (s.setCycles k).halted = s.halted := rfl
@[simp] theorem setCycles_irqLine (k : Nat) : (s.setCycles k).irqLine = s.irqLine := rfl
@[simp] theorem setCycles_mem (k : Nat) : (s.setCycles k).mem = s.mem := rfl
@[simp] theorem setCycles_windows (k : Nat) : (s.setCycles k).windows = s.windows := rfl
@[simp] theorem setCycles_device (k : Nat) : (s.setCycles k).device = s.device := rfl
@[simp] theorem setCycles_busLog (k : Nat) : (s.setCycles k).busLog = s.busLog := rfl
@[simp] theorem setCycles_cycles (k : Nat) : (s.setCycles k).cycles = k := rfl

@[simp] theorem logBus_pc (e : BusAccess) : (s.logBus e).pc = s.pc := rfl
@[simp] theorem logBus_sp (e : BusAccess) : (s.logBus e).sp = s.sp := rfl
@[simp] theorem logBus_a (e : BusAccess) : (s.logBus e).a = s.a := rfl
@[simp] theorem logBus_x (e : BusAccess) : (s.logBus e).x = s.x := rfl
@[simp] theorem logBus_y (e : BusAccess) : (s.logBus e).y = s.y := rfl
@[simp] theorem logBus_flags (e : BusAccess) : (s.logBus e).flags = s.flags := rfl
@[simp] theorem logBus_nmiPending (e : BusAccess) : (s.logBus e).nmiPending = s.nmiPending := rfl
@[simp] theorem logBus_resPending (e : BusAccess) : (s.logBus e).resPending = s.resPending := rfl
@[simp] theorem logBus_halted (e : BusAccess) : (s.logBus e).halted = s.halted := rfl
@[simp] theorem logBus_irqLine (e : BusAccess) : (s.logBus e).irqLine = s.irqLine := rfl
@[simp] theorem logBus_mem (e : BusAccess) : (s.logBus e).mem = s.mem := rfl
@[simp] theorem logBus_windows (e : BusAccess) : (s.logBus e).windows = s.windows := rfl
@[simp] theorem logBus_device (e : BusAccess) : (s.logBus e).device = s.device := rfl
@[simp] theorem logBus_busLog (e : BusAccess) : (s.logBus e).busLog = s.busLog ++ [e] := rfl
@[simp] theorem logBus_cycles (e : BusAccess) : (s.logBus e).cycles = s.cycles := rfl

@[simp] theorem react_pc (r : Reaction) : (s.react r).pc = s.pc := rfl
@[simp] theorem react_sp (r : Reaction) : (s.react r).sp = s.sp := rfl
@[simp] theorem react_a (r : Reaction) : (s.react r).a = s.a := rfl
@[simp] theorem react_x (r : Reaction) : (s.react r).x = s.x := rfl
@[simp] theorem react_y (r : Reaction) : (s.react r).y = s.y := rfl
@[simp] theorem react_flags (r : Reaction) : (s.react r).flags = s.flags := rfl
@[simp] theorem react_nmiPending (r : Reaction) : (s.react r).nmiPending = (r.nmi || s.nmiPending) := rfl
@[simp] theorem react_resPending (r : Reaction) : (s.react r).resPending = s.resPending := rfl
@[simp] theorem react_halted (r : Reaction) : (s.react r).halted = s.halted := rfl
@[simp] theorem react_irqLine (r : Reaction) : (s.react r).irqLine = r.irq.getD s.irqLine := rfl
@[simp] theorem react_mem (r : Reaction) : (s.react r).mem = s.mem := rfl
@[simp] theorem react_windows (r : Reaction) : (s.react r).windows = s.windows := rfl
@[simp] theorem react_device (r : Reaction) : (s.react r).device = r.device := rfl
@[simp] theorem react_busLog (r : Reaction) : (s.react r).busLog = s.busLog := rfl
@[simp] theorem react_cycles (r : Reaction) : (s.react r).cycles = s.cycles := rfl

@[simp] theorem setZN_pc (v : Byte) : (s.setZN v).pc = s.pc := rfl
@[simp] theorem setZN_sp (v : Byte) : (s.setZN v).sp = s.sp := rfl
@[simp] theorem setZN_a (v : Byte) : (s.setZN v).a = s.a := rfl
@[simp] theorem setZN_x (v : Byte) : (s.setZN v).x = s.x := rfl
@[simp] theorem setZN_y (v : Byte) : (s.setZN v).y = s.y := rfl
@[simp] theorem setZN_flags (v : Byte) : (s.setZN v).flags = s.flags.setZN v := rfl
@[simp] theorem setZN_nmiPending (v : Byte) : (s.setZN v).nmiPending = s.nmiPending := rfl
@[simp] theorem setZN_resPending (v : Byte) : (s.setZN v).resPending = s.resPending := rfl
@[simp] theorem setZN_halted (v : Byte) : (s.setZN v).halted = s.halted := rfl
@[simp] theorem setZN_irqLine (v : Byte) : (s.setZN v).irqLine = s.irqLine := rfl
@[simp] theorem setZN_mem (v : Byte) : (s.setZN v).mem = s.mem := rfl
@[simp] theorem setZN_windows (v : Byte) : (s.setZN v).windows = s.windows := rfl
@[simp] theorem setZN_device (v : Byte) : (s.setZN v).device = s.device := rfl
@[simp] theorem setZN_busLog (v : Byte) : (s.setZN v).busLog = s.busLog := rfl
@[simp] theorem setZN_cycles (v : Byte) : (s.setZN v).cycles = s.cycles := rfl

@[simp] theorem beginStep_pc : s.beginStep.pc = s.pc := rfl
@[simp] theorem beginStep_sp : s.beginStep.sp = s.sp := rfl
@[simp] theorem beginStep_a : s.beginStep.a = s.a := rfl
@[simp] theorem beginStep_x : s.beginStep.x = s.x := rfl
@[simp] theorem beginStep_y : s.beginStep.y = s.y := rfl
@[simp] theorem beginStep_flags : s.beginStep.flags = s.flags := rfl
@[simp] theorem beginStep_nmiPending : s.beginStep.nmiPending = s.nmiPending := rfl
@[simp] theorem beginStep_resPending : s.beginStep.resPending = s.resPending := rfl
@[simp] theorem beginStep_halted : s.beginStep.halted = s.halted := rfl
@[simp] theorem beginStep_irqLine : s.beginStep.irqLine = s.irqLine := rfl
@[simp] theorem beginStep_mem : s.beginStep.mem = s.mem := rfl
@[simp] theorem beginStep_windows : s.beginStep.windows = s.windows := rfl
@[simp] theorem beginStep_device : s.beginStep.device = s.device := rfl
@[simp] theorem beginStep_busLog : s.beginStep.busLog = [] := rfl
@[simp] theorem beginStep_cycles : s.beginStep.cycles = 0 := rfl


@[simp] theorem memRead_pc (addr : Word) : (s.memRead addr).2.pc = s.pc := rfl
@[simp] theorem memRead_sp (addr : Word) : (s.memRead addr).2.sp = s.sp := rfl
@[simp] theorem memRead_a (addr : Word) : (s.memRead addr).2.a = s.a := rfl
@[simp] theorem memRead_x (addr : Word) : (s.memRead addr).2.x = s.x := rfl
@[simp] theorem memRead_y (addr : Word) : (s.memRead addr).2.y = s.y := rfl
@[simp] theorem memRead_flags (addr : Word) : (s.memRead addr).2.flags = s.flags := rfl
@[simp] theorem memRead_resPending (addr : Word) : (s.memRead addr).2.resPending = s.resPending := rfl
@[simp] theorem memRead_halted (addr : Word) : (s.memRead addr).2.halted = s.halted := rfl
@[simp] theorem memRead_windows (addr : Word) : (s.memRead addr).2.windows = s.windows := rfl
@[simp] theorem memRead_cycles (addr : Word) : (s.memRead addr).2.cycles = s.cycles := rfl
@[simp] theorem memRead_mem (addr : Word) : (s.memRead addr).2.mem = s.mem := rfl
@[simp] theorem memRead_device (addr : Word) : (s.memRead addr).2.device = (s.readReaction addr).device := rfl
@[simp] theorem memRead_busLog (addr : Word) : (s.memRead addr).2.busLog = s.busLog ++ [.read addr (s.peek addr)] := rfl
@[simp] theorem memRead_byte (addr : Word) : (s.memRead addr).1 = s.peek addr := rfl

@[simp] theorem memWrite_pc (addr : Word) (v : Byte) : (s.memWrite addr v).pc = s.pc := rfl
@[simp] theorem memWrite_sp (addr : Word) (v : Byte) : (s.memWrite addr v).sp = s.sp := rfl
@[simp] theorem memWrite_a (addr : Word) (v : Byte) : (s.memWrite addr v).a = s.a := rfl
@[simp] theorem memWrite_x (addr : Word) (v : Byte) : (s.memWrite addr v).x = s.x := rfl
@[simp] theorem memWrite_y (addr : Word) (v : Byte) : (s.memWrite addr v).y = s.y := rfl
@[simp] theorem memWrite_flags (addr : Word) (v : Byte) : (s.memWrite addr v).flags = s.flags := rfl
@[simp] theorem memWrite_resPending (addr : Word) (v : Byte) : (s.memWrite addr v).resPending = s.resPending := rfl
@[simp] theorem memWrite_halted (addr : Word) (v : Byte) : (s.memWrite addr v).halted = s.halted := rfl
@[simp] theorem memWrite_windows (addr : Word) (v : Byte) : (s.memWrite addr v).windows = s.windows := rfl
@[simp] theorem memWrite_cycles (addr : Word) (v : Byte) : (s.memWrite addr v).cycles = s.cycles := rfl
@[simp] theorem memWrite_mem (addr : Word) (v : Byte) : (s.memWrite addr v).mem = s.ramAfterWrite addr v := rfl
@[simp] theorem memWrite_device (addr : Word) (v : Byte) : (s.memWrite addr v).device = (s.writeReaction addr v).device := rfl
@[simp] theorem memWrite_busLog (addr : Word) (v : Byte) : (s.memWrite addr v).busLog = s.busLog ++ [.write addr v] := rfl

@[simp] theorem push_pc (v : Byte) : (s.push v).pc = s.pc := rfl
@[simp] theorem push_sp (v : Byte) : (s.push v).sp = s.sp - 1 := rfl
@[simp] theorem push_a (v : Byte) : (s.push v).a = s.a := rfl
@[simp] theorem push_x (v : Byte) : (s.push v).x = s.x := rfl
@[simp] theorem push_y (v : Byte) : (s.push v).y = s.y := rfl
@[simp] theorem push_flags (v : Byte) : (s.push v).flags = s.flags := rfl
@[simp] theorem push_resPending (v : Byte) : (s.push v).resPending = s.resPending := rfl
@[simp] theorem push_halted (v : Byte) : (s.push v).halted = s.halted := rfl
@[simp] theorem push_windows (v : Byte) : (s.push v).windows = s.windows := rfl
@[simp] theorem push_cycles (v : Byte) : (s.push v).cycles = s.cycles := rfl
@[simp] theorem push_mem (v : Byte) : (s.push v).mem = s.ramAfterWrite (stackAddr s.sp) v := rfl
@[simp] theorem push_busLog (v : Byte) : (s.push v).busLog = s.busLog ++ [.write (stackAddr s.sp) v] := rfl

@[simp] theorem pop_pc : s.pop.2.pc = s.pc := rfl
@[simp] theorem pop_sp : s.pop.2.sp = s.sp + 1 := rfl
@[simp] theorem pop_a : s.pop.2.a = s.a := rfl
@[simp] theorem pop_x : s.pop.2.x = s.x := rfl
@[simp] theorem pop_y : s.pop.2.y = s.y := rfl
@[simp] theorem pop_flags : s.pop.2.flags = s.flags := rfl
@[simp] theorem pop_resPending : s.pop.2.resPending = s.resPending := rfl
@[simp] theorem pop_halted : s.pop.2.halted = s.halted := rfl
@[simp] theorem pop_windows : s.pop.2.windows = s.windows := rfl
@[simp] theorem pop_cycles : s.pop.2.cycles = s.cycles := rfl
@[simp] theorem pop_mem : s.pop.2.mem = s.mem := rfl
@[simp] theorem pop_byte : s.pop.1 = s.peek (stackAddr (s.sp + 1)) := rfl

end Sys2Proof.Machine.State
end

