-- ==== Sys2Proof/Laws/Ops.lean ====
section
/-! SUPPORT. For each shared operation over the bus, the stack and the instruction stream, all it can do, in one equation
on the state; and the few facts of addresses they rest on. -/

namespace Sys2Proof.Machine

variable (s : State)

/-! ### The bus: RAM or a device -/

theorem State.hasDevice_congr {s t : State} (h : t.windows = s.windows) (a : Word) : t.hasDevice a = s.hasDevice a := by
  simp only [State.hasDevice, h]

theorem State.hasDevice_of_noWindows {s : State} (h : s.windows = []) (a : Word) : s.hasDevice a = false := by
  simp only [State.hasDevice, h, List.any_nil]

theorem State.peek_ram {s : State} {a : Word} (h : s.hasDevice a = false) : s.peek a = s.mem.read a.toNat := by
  simp [State.peek, h]

/-- What a read gives depends on the RAM, the windows and the device state only. -/
theorem State.peek_congr {s t : State} (hm : t.mem = s.mem) (hw : t.windows = s.windows) (hd : t.device = s.device)
    (a : Word) : t.peek a = s.peek a := by
  simp only [State.peek, State.hasDevice_congr hw, hm, hd]

/-- A byte of the RAM reads the same wherever the RAM and the windows are the same. -/
theorem State.peek_ram_congr {s t : State} {a : Word} (h : s.hasDevice a = false) (hm : t.mem = s.mem)
    (hw : t.windows = s.windows) : t.peek a = s.peek a := by
  rw [State.peek_ram h, State.peek_ram ((State.hasDevice_congr hw a).trans h), hm]

theorem State.readReaction_ram {s : State} {a : Word} (h : s.hasDevice a = false) :
    s.readReaction a = { device := s.device, irq := none, nmi := false } := by
  simp [State.readReaction, h]

theorem State.writeReaction_ram {s : State} {a : Word} (h : s.hasDevice a = false) (v : Byte) :
    s.writeReaction a v = { device := s.device, irq := none, nmi := false } := by
  simp [State.writeReaction, h]

/-- Without a reaction nothing happens. -/
@[simp] theorem State.react_idle : s.react { device := s.device, irq := none, nmi := false } = s := rfl

/-- A read of RAM only logs. -/
theorem State.memRead_ram {s : State} {a : Word} (h : s.hasDevice a = false) :
    s.memRead a = (s.peek a, s.logBus (.read a (s.peek a))) := by
  rw [State.memRead, State.readReaction_ram h, State.react_idle]

/-- A write of RAM stores the byte and logs. -/
theorem State.memWrite_ram {s : State} {a : Word} (h : s.hasDevice a = false) (v : Byte) :
    s.memWrite a v = (s.setMem (s.mem.write a.toNat v)).logBus (.write a v) := by
  rw [State.memWrite, State.writeReaction_ram h, State.react_idle]
  simp [State.ramAfterWrite, h]

/-! ### Each shared operation as one equation -/

theorem State.push_eq (v : Byte) : s.push v = (s.memWrite (stackAddr s.sp) v).setSp (s.sp - 1) := rfl

theorem State.pop_eq : s.pop = (s.setSp (s.sp + 1)).memRead (stackAddr (s.sp + 1)) := rfl

/-- The flags play no part in a pop. -/
theorem State.pop_setFlags (f : Flags) : (s.setFlags f).pop = (s.pop.1, s.pop.2.setFlags f) := rfl

theorem State.popWord_eq : s.popWord = (joinBytes s.pop.2.pop.1 s.pop.1, s.pop.2.pop.2) := rfl

theorem State.loadPcFrom_eq (vec : Word) :
    s.loadPcFrom vec =
      ((s.memRead vec).2.memRead (vec + 1)).2.setPc (joinBytes ((s.memRead vec).2.peek (vec + 1)) (s.peek vec)) := rfl

theorem State.fetchByte_eq : s.fetchByte = (s.peek s.pc, (s.memRead s.pc).2.setPc (s.pc + 1)) := rfl

/-! ### The RAM after an operation that does not write it -/

theorem State.popWord_mem : s.popWord.2.mem = s.mem := rfl
theorem State.loadPcFrom_mem (vec : Word) : (s.loadPcFrom vec).mem = s.mem := rfl
theorem State.resetSequence_mem : s.resetSequence.mem = s.mem := rfl

theorem State.fetchDecode_mem : s.fetchDecode.2.mem = s.mem := by
  simp only [State.fetchDecode]
  split <;> rfl

/-! ### A byte written is the byte read, and no other changes -/

theorem State.peek_memRead {a b : Word} (h : s.hasDevice b = false) : (s.memRead a).2.peek b = s.peek b :=
  State.peek_ram_congr h rfl rfl

theorem State.peek_memWrite_same {a : Word} (h : s.hasDevice a = false) (v : Byte) : (s.memWrite a v).peek a = v := by
  have hw : (s.memWrite a v).hasDevice a = false := h
  rw [State.peek_ram hw, State.memWrite_mem, State.ramAfterWrite, h]
  exact Memory.read_write_same _ _ _

theorem State.peek_memWrite_other {a b : Word} (h : s.hasDevice b = false) (v : Byte) (hb : b ≠ a) :
    (s.memWrite a v).peek b = s.peek b := by
  have hw : (s.memWrite a v).hasDevice b = false := h
  have hn : b.toNat ≠ a.toNat := fun e => hb (BitVec.eq_of_toNat_eq e)
  rw [State.peek_ram hw, State.peek_ram h, State.memWrite_mem, State.ramAfterWrite]
  split
  · rfl
  · exact Memory.read_write_other _ _ hn

/-- The canonical form survives a write at any address of the bus. -/
theorem State.wf_memWrite (h : s.mem.wf = true) (a : Word) (v : Byte) : (s.memWrite a v).mem.wf = true := by
  rw [State.memWrite_mem, State.ramAfterWrite]
  split
  · exact h
  · exact Memory.wf_write h a.isLt v

theorem State.wf_push (h : s.mem.wf = true) (v : Byte) : (s.push v).mem.wf = true := s.wf_memWrite h _ v

theorem State.wf_pushWord (h : s.mem.wf = true) (w : Word) : (s.pushWord w).mem.wf = true :=
  (s.push (hiByte w)).wf_push (s.wf_push h _) _

theorem State.wf_service (h : s.mem.wf = true) (k : IntKind) : (s.service k).mem.wf = true := by
  simp only [State.service, State.loadPcFrom_mem, State.setFlags_mem]
  exact (s.pushWord s.pc).wf_push (s.wf_pushWord h _) _

/-- Bytes placed from outside keep the canonical form too. -/
theorem State.wf_place (h : s.mem.wf = true) (a : Word) (bs : List Byte) : (s.place a bs).mem.wf = true := by
  induction bs generalizing s a with
  | nil => exact h
  | cons b bs ih => exact ih _ (Memory.wf_write h a.isLt b) _

/-! ### Addresses -/

theorem toNat_stackAddr (sp : Byte) : (stackAddr sp).toNat = 256 + sp.toNat := by
  have : ∀ b : Byte, (stackAddr b).toNat = 256 + b.toNat := by decide
  exact this sp

/-- Different stack pointers name different bytes. -/
theorem stackAddr_inj {p q : Byte} (h : stackAddr p = stackAddr q) : p = q := by
  apply BitVec.eq_of_toNat_eq
  have := congrArg BitVec.toNat h
  rw [toNat_stackAddr, toNat_stackAddr] at this
  omega

theorem toNat_joinBytes (hi lo : Byte) : (joinBytes hi lo).toNat = 256 * hi.toNat + lo.toNat := by
  rw [joinBytes, BitVec.toNat_append, ← Nat.shiftLeft_add_eq_or_of_lt lo.isLt, Nat.shiftLeft_eq]
  omega

theorem toNat_hiByte (w : Word) : (hiByte w).toNat = w.toNat / 256 := by
  have := w.isLt
  simp [hiByte, Nat.shiftRight_eq_div_pow]
  omega

theorem toNat_loByte (w : Word) : (loByte w).toNat = w.toNat % 256 := by simp [loByte]

/-- Splitting a 16-bit value and joining it again. -/
@[simp] theorem joinBytes_hi_lo (w : Word) : joinBytes (hiByte w) (loByte w) = w := by
  apply BitVec.eq_of_toNat_eq
  rw [toNat_joinBytes, toNat_hiByte, toNat_loByte]
  omega

@[simp] theorem hiByte_joinBytes (hi lo : Byte) : hiByte (joinBytes hi lo) = hi := by
  apply BitVec.eq_of_toNat_eq
  have := lo.isLt
  rw [toNat_hiByte, toNat_joinBytes]
  omega

@[simp] theorem loByte_joinBytes (hi lo : Byte) : loByte (joinBytes hi lo) = lo := by
  apply BitVec.eq_of_toNat_eq
  have := lo.isLt
  rw [toNat_loByte, toNat_joinBytes]
  omega

/-! ### The sequences that move PC through a vector or the stack -/

/-- All that a service sequence can change: PC, SP, I, and the bus's side. -/
theorem State.service_eq (k : IntKind) :
    s.service k =
      { s with
        pc := (s.service k).pc
        sp := s.sp - 1 - 1 - 1
        flags := { s.flags with i := true }
        nmiPending := (s.service k).nmiPending
        irqLine := (s.service k).irqLine
        mem := (s.service k).mem
        device := (s.service k).device
        busLog := (s.service k).busLog } := by
  apply State.ext <;> simp [State.service, State.pushWord, State.loadPcFrom_eq]

/-- All that a return from a handler can change: PC, SP, the flags, and the bus's side but for the RAM. -/
theorem State.returnFromInterrupt_eq :
    s.returnFromInterrupt =
      { s with
        pc := joinBytes s.pop.2.pop.2.pop.1 s.pop.2.pop.1
        sp := s.sp + 1 + 1 + 1
        flags := s.flags.fromByte s.pop.1
        nmiPending := s.pop.2.pop.2.pop.2.nmiPending
        irqLine := s.pop.2.pop.2.pop.2.irqLine
        device := s.pop.2.pop.2.pop.2.device
        busLog := s.pop.2.pop.2.pop.2.busLog } := by
  apply State.ext <;> simp [State.returnFromInterrupt, State.popWord_eq, State.pop_setFlags]

theorem State.returnFromInterrupt_mem : s.returnFromInterrupt.mem = s.mem := by
  simp [State.returnFromInterrupt, State.popWord_mem]

/-- All that the reset sequence can change. -/
theorem State.resetSequence_eq :
    s.resetSequence =
      { s with
        pc := (s.loadPcFrom Config.vecReset).pc
        sp := Config.spReset
        a := Config.aReset
        x := Config.xReset
        y := Config.yReset
        flags := { c := false, z := false, i := true, d := false, b := false, v := false, n := false }
        nmiPending := (s.loadPcFrom Config.vecReset).nmiPending
        resPending := false
        halted := false
        irqLine := (s.loadPcFrom Config.vecReset).irqLine
        device := (s.loadPcFrom Config.vecReset).device
        busLog := (s.loadPcFrom Config.vecReset).busLog } := rfl

end Sys2Proof.Machine
end

