-- ==== Sys2Proof/Laws/Decode.lean ====
section
/-! SUPPORT. The decoder by the length of the instruction: what it answers once the opcode byte's layout is known. -/

namespace Sys2Proof

variable {b : Byte} {i : Instr} {f : Byte → Instr} {g : Word → Instr}

theorem decode_bare (h : layoutOf b = .bare i) (rest : List Byte) : decode (b :: rest) = .ok (i, rest) := by
  simp [decode, h]

theorem decode_byteArg (h : layoutOf b = .byteArg f) (v : Byte) (rest : List Byte) :
    decode (b :: v :: rest) = .ok (f v, rest) := by
  simp [decode, h]

theorem decode_wordArg (h : layoutOf b = .wordArg g) (lo hi : Byte) (rest : List Byte) :
    decode (b :: lo :: hi :: rest) = .ok (g (joinBytes hi lo), rest) := by
  simp [decode, h]

/-- An operand word split as the encoder splits it is joined again by the decoder. -/
theorem decode_word (h : layoutOf b = .wordArg g) (w : Word) (rest : List Byte) :
    decode (b :: loByte w :: hiByte w :: rest) = .ok (g w, rest) := by
  rw [decode_wordArg h, Machine.joinBytes_hi_lo]

/-- R66: a byte without a cell in the matrix is an illegal opcode of length 1. -/
theorem layoutOf_of_no_cell (h : cellOf b = none) : layoutOf b = .bare (.ill b) := by
  simp [layoutOf, h]

end Sys2Proof
end

