-- ==== Sys2Proof/Laws/Operands.lean ====
section
/-! SUPPORT. For each operand form, all that resolving, reading, storing and modifying can do to the state: the list of bus
accesses grows, and a store or a modify also writes its one place. -/

namespace Sys2Proof.Machine

theorem toNat_zeroPage (z : Byte) : (zeroPage z).toNat = z.toNat := by
  have := z.isLt
  simp only [zeroPage, BitVec.toNat_setWidth]
  omega

/-- `Resolve` writes no register, flag or RAM byte (R80): only its reads act on the bus's side. -/
theorem resolve_st (m : AddrForm) (s : State) :
    (resolve m s).st =
      { s with
        nmiPending := (resolve m s).st.nmiPending
        irqLine := (resolve m s).st.irqLine
        device := (resolve m s).st.device
        busLog := (resolve m s).st.busLog } := by
  cases m <;> rfl

theorem resolve_mem (m : AddrForm) (s : State) : (resolve m s).st.mem = s.mem := by rw [resolve_st]

/-- `ReadOperand` at memory: one read at the effective address after what `Resolve` did. -/
theorem readMem_eq (m : AddrForm) (s : State) :
    readMem m s =
      { val := (resolve m s).st.peek (resolve m s).ea
        crossed := (resolve m s).crossed
        st := ((resolve m s).st.memRead (resolve m s).ea).2 } := rfl

theorem readOperand_st (f : ReadForm) (s : State) :
    (readOperand f s).st =
      { s with
        nmiPending := (readOperand f s).st.nmiPending
        irqLine := (readOperand f s).st.irqLine
        device := (readOperand f s).st.device
        busLog := (readOperand f s).st.busLog } := by
  cases f with
  | imm v => rfl
  | mem m =>
    have h := resolve_st m s
    apply State.ext <;> simp [readOperand, readMem_eq] <;> rw [h]

/-- A store: one write at the effective address after what `Resolve` did. -/
theorem storeOperand_st (m : AddrForm) (v : Byte) (s : State) :
    (storeOperand m v s).st = (resolve m s).st.memWrite (resolve m s).ea v := rfl

/-- A modify at memory: one read, one write of `g` of the byte read, at the same address. -/
theorem modifyOperand_mem (m : AddrForm) (g : Byte → Byte) (s : State) :
    modifyOperand (.mem m) g s =
      { val := (resolve m s).st.peek (resolve m s).ea
        crossed := (resolve m s).crossed
        st :=
          ((resolve m s).st.memRead (resolve m s).ea).2.memWrite (resolve m s).ea
            (g ((resolve m s).st.peek (resolve m s).ea)) } := rfl

theorem modifyOperand_acc (g : Byte → Byte) (s : State) :
    modifyOperand .acc g s = { val := s.a, crossed := false, st := s.setA (g s.a) } := rfl

/-- The canonical form survives a store. -/
theorem wf_storeOperand (m : AddrForm) (v : Byte) {s : State} (h : s.mem.wf = true) :
    (storeOperand m v s).st.mem.wf = true := by
  rw [storeOperand_st]
  exact State.wf_memWrite _ (by rwa [resolve_mem]) _ _

/-- The canonical form survives a modify. -/
theorem wf_modifyOperand (f : RmwForm) (g : Byte → Byte) {s : State} (h : s.mem.wf = true) :
    (modifyOperand f g s).st.mem.wf = true := by
  cases f with
  | acc => exact h
  | mem m =>
    have hr : ((resolve m s).st.memRead (resolve m s).ea).2.mem.wf = true := by
      rw [State.memRead_mem, resolve_mem]
      exact h
    exact State.wf_memWrite _ hr _ _

theorem resolveIndirect_eq (ptr : Word) (s : State) :
    resolveIndirect ptr s =
      (joinBytes ((s.memRead ptr).2.peek (wrapInPage ptr)) (s.peek ptr),
        ((s.memRead ptr).2.memRead (wrapInPage ptr)).2) := rfl

end Sys2Proof.Machine
end

