-- ==== Sys2Proof/Laws/PerInstr.lean ====
section
/-! SUPPORT. The family EncodingLength: the length of every instruction's encoding is the length its mode has in R61, and
is 1, 2 or 3 (spec/30_encoding.md R60, R61). One lemma per constructor of Instr. -/

namespace Sys2Proof.Laws.EncodingLength

/-- The encoding of `i` has as many bytes as R61 gives its mode. -/
def Statement (i : Instr) : Prop := (encode i).length = modeLength (modeOf i)

theorem bytes_length (o : Operand) : o.bytes.length + 1 = modeLength o.mode := by cases o <;> rfl

theorem all (i : Instr) : Statement i := bytes_length (operandOf i)

theorem lda (o : AluOperand) : Statement (.lda o) := all _
theorem ldx (o : LdxOperand) : Statement (.ldx o) := all _
theorem ldy (o : LdyOperand) : Statement (.ldy o) := all _
theorem sta (o : StaOperand) : Statement (.sta o) := all _
theorem stx (o : StxOperand) : Statement (.stx o) := all _
theorem sty (o : StyOperand) : Statement (.sty o) := all _
theorem adc (o : AluOperand) : Statement (.adc o) := all _
theorem sbc (o : AluOperand) : Statement (.sbc o) := all _
theorem and (o : AluOperand) : Statement (.and o) := all _
theorem ora (o : AluOperand) : Statement (.ora o) := all _
theorem eor (o : AluOperand) : Statement (.eor o) := all _
theorem bit (o : BitOperand) : Statement (.bit o) := all _
theorem asl (o : ShiftOperand) : Statement (.asl o) := all _
theorem lsr (o : ShiftOperand) : Statement (.lsr o) := all _
theorem rol (o : ShiftOperand) : Statement (.rol o) := all _
theorem ror (o : ShiftOperand) : Statement (.ror o) := all _
theorem bpl (d : Byte) : Statement (.bpl d) := all _
theorem bmi (d : Byte) : Statement (.bmi d) := all _
theorem bvc (d : Byte) : Statement (.bvc d) := all _
theorem bvs (d : Byte) : Statement (.bvs d) := all _
theorem bcc (d : Byte) : Statement (.bcc d) := all _
theorem bcs (d : Byte) : Statement (.bcs d) := all _
theorem bne (d : Byte) : Statement (.bne d) := all _
theorem beq (d : Byte) : Statement (.beq d) := all _
theorem jmp (o : JmpOperand) : Statement (.jmp o) := all _
theorem jsr (t : Word) : Statement (.jsr t) := all _
theorem rts : Statement .rts := all _
theorem pha : Statement .pha := all _
theorem pla : Statement .pla := all _
theorem php : Statement .php := all _
theorem plp : Statement .plp := all _
theorem tsx : Statement .tsx := all _
theorem txs : Statement .txs := all _
theorem clc : Statement .clc := all _
theorem sec : Statement .sec := all _
theorem cli : Statement .cli := all _
theorem sei : Statement .sei := all _
theorem cld : Statement .cld := all _
theorem sed : Statement .sed := all _
theorem clv : Statement .clv := all _
theorem nop : Statement .nop := all _
theorem brk : Statement .brk := all _
theorem ill (b : Byte) : Statement (.ill b) := all _
theorem cmp (o : AluOperand) : Statement (.cmp o) := all _
theorem cpx (o : CmpOperand) : Statement (.cpx o) := all _
theorem cpy (o : CmpOperand) : Statement (.cpy o) := all _
theorem inc (o : IncOperand) : Statement (.inc o) := all _
theorem dec (o : IncOperand) : Statement (.dec o) := all _
theorem inx : Statement .inx := all _
theorem iny : Statement .iny := all _
theorem dex : Statement .dex := all _
theorem dey : Statement .dey := all _
theorem tax : Statement .tax := all _
theorem tay : Statement .tay := all _
theorem txa : Statement .txa := all _
theorem tya : Statement .tya := all _
theorem rti : Statement .rti := all _

end Sys2Proof.Laws.EncodingLength
end

