-- ==== Sys2Proof/Laws/Step.lean ====
section
/-! SUPPORT. What a step can be: one lemma per case of the boundary, and what retiring an instruction does. -/

namespace Sys2Proof.Machine

theorem State.retire_eq (s : State) (i : Instr) (crossed taken : Bool) :
    s.retire i crossed taken = .next (s.setCycles (stepCycles (opcodeOf i) crossed taken)) := rfl

theorem step_of_reset {s : State} (h : s.boundary = .reset) : step s = .next s.beginStep.resetStep := by
  simp only [step, h]

theorem step_of_halted {s : State} (h : s.boundary = .halted) : step s = .next s.beginStep := by
  simp only [step, h]

theorem step_of_nmi {s : State} (h : s.boundary = .nmi) : step s = .next s.beginStep.nmiStep := by
  simp only [step, h]

theorem step_of_irq {s : State} (h : s.boundary = .irq) : step s = .next s.beginStep.irqStep := by
  simp only [step, h]

theorem step_of_fetch {s : State} (h : s.boundary = .fetch) :
    step s = exec s.beginStep.fetchDecode.1 s.beginStep.fetchDecode.2 := by
  simp only [step, h]

/-- A step is one of five things (R236, R248). -/
theorem step_cases {s : State} {r : Result} (h : step s = r) :
    (s.boundary = .reset ∧ r = .next s.beginStep.resetStep) ∨
    (s.boundary = .halted ∧ r = .next s.beginStep) ∨
    (s.boundary = .nmi ∧ r = .next s.beginStep.nmiStep) ∨
    (s.boundary = .irq ∧ r = .next s.beginStep.irqStep) ∨
    (s.boundary = .fetch ∧ r = exec s.beginStep.fetchDecode.1 s.beginStep.fetchDecode.2) := by
  subst h
  cases hb : s.boundary
  · exact .inl ⟨rfl, step_of_reset hb⟩
  · exact .inr (.inl ⟨rfl, step_of_halted hb⟩)
  · exact .inr (.inr (.inl ⟨rfl, step_of_nmi hb⟩))
  · exact .inr (.inr (.inr (.inl ⟨rfl, step_of_irq hb⟩)))
  · exact .inr (.inr (.inr (.inr ⟨rfl, step_of_fetch hb⟩)))

/-! ### The five conditions of R236 -/

theorem boundary_reset_iff {s : State} : s.boundary = .reset ↔ s.resPending = true := by
  simp only [State.boundary]
  cases s.resPending <;> cases s.halted <;> cases s.nmiPending <;> cases s.irqLine <;> cases s.flags.i <;> simp

theorem boundary_halted_iff {s : State} : s.boundary = .halted ↔ s.resPending = false ∧ s.halted = true := by
  simp only [State.boundary]
  cases s.resPending <;> cases s.halted <;> cases s.nmiPending <;> cases s.irqLine <;> cases s.flags.i <;> simp

theorem boundary_nmi_iff {s : State} :
    s.boundary = .nmi ↔ s.resPending = false ∧ s.halted = false ∧ s.nmiPending = true := by
  simp only [State.boundary]
  cases s.resPending <;> cases s.halted <;> cases s.nmiPending <;> cases s.irqLine <;> cases s.flags.i <;> simp

theorem boundary_irq_iff {s : State} :
    s.boundary = .irq ↔
      s.resPending = false ∧ s.halted = false ∧ s.nmiPending = false ∧ s.irqLine = true ∧ s.flags.i = false := by
  simp only [State.boundary]
  cases s.resPending <;> cases s.halted <;> cases s.nmiPending <;> cases s.irqLine <;> cases s.flags.i <;> simp

theorem boundary_fetch_iff {s : State} :
    s.boundary = .fetch ↔
      s.resPending = false ∧ s.halted = false ∧ s.nmiPending = false ∧ (s.irqLine = false ∨ s.flags.i = true) := by
  simp only [State.boundary]
  cases s.resPending <;> cases s.halted <;> cases s.nmiPending <;> cases s.irqLine <;> cases s.flags.i <;> simp

end Sys2Proof.Machine
end

