-- ==== Sys2Proof/Tests/Slice0.lean ====
section
/-! SUPPORT. The model's own tests. Every expected value is the spec's: the encodings of spec/30_encoding.md R61, R64 and R69,
the examples of each instruction's rule, the vectors of spec/95_test_vectors.md. And for every obligation that has
hypotheses, a theorem `witness_<obligation>` that shows they can be met together. -/

namespace Sys2Proof.Tests

open Sys2Proof.Machine Sys2Proof.Safety

/-! ### Well-formedness -/

theorem test_wellFormed_illegal : WellFormed (.ill 0x02) = true := by decide

/-- 0xA9 is LDA immediate: not one of the 105 bytes of R66, so no ILL stands for it. -/
theorem test_illFormed_documented : WellFormed (.ill 0xA9) = false := by decide

theorem test_wellFormed_others : WellFormed .nop = true ∧ WellFormed (.lda (.izy 0xFF)) = true := by decide

/-- "the 105 opcode bytes": R66; the other 151 are R64's. -/
theorem test_illegal_count : illegalBytes.length = 105 ∧ illegalBytes.Nodup := by decide

/-! ### Decoding: one written-out encoding for every constructor -/

theorem test_decode_loadStore :
    decode [0xA9, 0x05] = .ok (.lda (.imm 0x05), []) ∧
    decode [0xB6, 0x10] = .ok (.ldx (.zpy 0x10), []) ∧
    decode [0xBC, 0xF0, 0x20] = .ok (.ldy (.abx 0x20F0), []) ∧
    decode [0x9D, 0x01, 0x12] = .ok (.sta (.abx 0x1201), []) ∧
    decode [0x96, 0xF0] = .ok (.stx (.zpy 0xF0), []) ∧
    decode [0x84, 0x10] = .ok (.sty (.zp 0x10), []) := ⟨rfl, rfl, rfl, rfl, rfl, rfl⟩

theorem test_decode_arithmeticLogical :
    decode [0x71, 0x40] = .ok (.adc (.izy 0x40), []) ∧
    decode [0xF9, 0x80, 0x20] = .ok (.sbc (.aby 0x2080), []) ∧
    decode [0x21, 0x20] = .ok (.and (.izx 0x20), []) ∧
    decode [0x09, 0x80] = .ok (.ora (.imm 0x80), []) ∧
    decode [0x4D, 0x34, 0x12] = .ok (.eor (.abs 0x1234), []) ∧
    decode [0x24, 0x10] = .ok (.bit (.zp 0x10), []) := ⟨rfl, rfl, rfl, rfl, rfl, rfl⟩

theorem test_decode_shiftRotate :
    decode [0x0A] = .ok (.asl .acc, []) ∧
    decode [0x5E, 0x00, 0x30] = .ok (.lsr (.abx 0x3000), []) ∧
    decode [0x36, 0x10] = .ok (.rol (.zpx 0x10), []) ∧
    decode [0x6E, 0x34, 0x12] = .ok (.ror (.abs 0x1234), []) := ⟨rfl, rfl, rfl, rfl⟩

theorem test_decode_branch :
    decode [0x10, 0x02] = .ok (.bpl 0x02, []) ∧ decode [0x30, 0xFE] = .ok (.bmi 0xFE, []) ∧
    decode [0x50, 0x10] = .ok (.bvc 0x10, []) ∧ decode [0x70, 0x00] = .ok (.bvs 0x00, []) ∧
    decode [0x90, 0x7F] = .ok (.bcc 0x7F, []) ∧ decode [0xB0, 0x80] = .ok (.bcs 0x80, []) ∧
    decode [0xD0, 0xFB] = .ok (.bne 0xFB, []) ∧ decode [0xF0, 0x00] = .ok (.beq 0x00, []) :=
  ⟨rfl, rfl, rfl, rfl, rfl, rfl, rfl, rfl⟩

theorem test_decode_jumpCall :
    decode [0x4C, 0x34, 0x12] = .ok (.jmp (.abs 0x1234), []) ∧
    decode [0x6C, 0xFF, 0x02] = .ok (.jmp (.ind 0x02FF), []) ∧
    decode [0x20, 0x34, 0x12] = .ok (.jsr 0x1234, []) ∧
    decode [0x60] = .ok (.rts, []) := ⟨rfl, rfl, rfl, rfl⟩

theorem test_decode_stack :
    decode [0x48] = .ok (.pha, []) ∧ decode [0x68] = .ok (.pla, []) ∧ decode [0x08] = .ok (.php, []) ∧
    decode [0x28] = .ok (.plp, []) ∧ decode [0xBA] = .ok (.tsx, []) ∧ decode [0x9A] = .ok (.txs, []) :=
  ⟨rfl, rfl, rfl, rfl, rfl, rfl⟩

theorem test_decode_flagSystem :
    decode [0x18] = .ok (.clc, []) ∧ decode [0x38] = .ok (.sec, []) ∧ decode [0x58] = .ok (.cli, []) ∧
    decode [0x78] = .ok (.sei, []) ∧ decode [0xD8] = .ok (.cld, []) ∧ decode [0xF8] = .ok (.sed, []) ∧
    decode [0xB8] = .ok (.clv, []) ∧ decode [0xEA] = .ok (.nop, []) ∧ decode [0x00, 0xEA] = .ok (.brk, [0xEA]) ∧
    decode [0x02] = .ok (.ill 0x02, []) := ⟨rfl, rfl, rfl, rfl, rfl, rfl, rfl, rfl, rfl, rfl⟩

theorem test_decode_supplied :
    decode [0xC1, 0x20] = .ok (.cmp (.izx 0x20), []) ∧ decode [0xE0, 0x06] = .ok (.cpx (.imm 0x06), []) ∧
    decode [0xCC, 0x34, 0x12] = .ok (.cpy (.abs 0x1234), []) ∧ decode [0xE6, 0x10] = .ok (.inc (.zp 0x10), []) ∧
    decode [0xDE, 0x00, 0x02] = .ok (.dec (.abx 0x0200), []) ∧ decode [0xE8] = .ok (.inx, []) ∧
    decode [0xC8] = .ok (.iny, []) ∧ decode [0xCA] = .ok (.dex, []) ∧ decode [0x88] = .ok (.dey, []) :=
  ⟨rfl, rfl, rfl, rfl, rfl, rfl, rfl, rfl, rfl⟩

theorem test_decode_transfersAndReturn :
    decode [0xAA] = .ok (.tax, []) ∧ decode [0xA8] = .ok (.tay, []) ∧ decode [0x8A] = .ok (.txa, []) ∧
    decode [0x98] = .ok (.tya, []) ∧ decode [0x40] = .ok (.rti, []) := ⟨rfl, rfl, rfl, rfl, rfl⟩

/-- R62: the low byte comes first. In the opcode table's numbering it is bits 15..8. -/
theorem test_decodeTableWord_littleEndian :
    decodeTableWord 24 0x1234AD = some (.lda (.abs 0x1234)) ∧ decodeTableWord 8 0xA9 = some (.lda (.imm 0x00)) :=
  ⟨rfl, rfl⟩

/-- A list of bytes that ends inside an instruction is refused by name. -/
theorem test_decode_truncated : decode [0xAD, 0x34] = .error (.missingOperand 0xAD) ∧ decode [] = .error .noOpcode := ⟨rfl, rfl⟩

/-! ### One step -/

/-- A machine about to fetch `bytes` at 0x0600, everything else as right after reset but for what `f` sets. -/
def probe (bytes : List Byte) (f : State → State) : State :=
  (f { State.reset with pc := 0x0600, busLog := [], cycles := 0 }).place 0x0600 bytes

/-- What `g` reads of the state after one step, if there is one. -/
def seen {α : Type} (s : State) (g : State → α) : Option α :=
  match step s with
  | .next t => some (g t)
  | .fault _ => none
  | .refused _ => none

/-- The carry, zero, negative and overflow flags, in this order. -/
def cznv (t : State) : Bool × Bool × Bool × Bool := (t.flags.c, t.flags.z, t.flags.n, t.flags.v)

/-- A machine with one carry flag set. -/
def withC (s : State) : State := { s with flags := { s.flags with c := true } }

/-- A machine with the four flags a branch looks at set. -/
def withFlags (c z n v : Bool) (s : State) : State := { s with flags := { s.flags with c := c, z := z, n := n, v := v } }

/-- R101. -/
theorem test_lda : seen (probe [0xA9, 0x05] id) (fun t => (t.pc, t.a, cznv t)) =
    some (0x0602, 0x05, false, false, false, false) := by decide

/-- R92 and R68: the index is added after the indirection, and the crossing costs a cycle. -/
theorem test_lda_izy : seen (probe [0xB1, 0x10]
      (fun s => ({ s with y := 0x20 }.place 0x0010 [0xF0, 0x12]).place 0x1310 [0x42])) (fun t => (t.a, t.cycles)) =
    some (0x42, 6) := by decide

/-- R102. -/
theorem test_ldx : seen (probe [0xA2, 0xFF] id) (fun t => (t.x, cznv t)) = some (0xFF, false, false, true, false) := by
  decide

/-- R86: the index wraps inside page 0. -/
theorem test_ldx_zpy : seen (probe [0xB6, 0xFF] (fun s => { s with y := 0x01 }.place 0x0000 [0x77])) (fun t => t.x) =
    some 0x77 := by decide

/-- R103. -/
theorem test_ldy : seen (probe [0xA4, 0x10] (fun s => { s with y := 0x33 })) (fun t => (t.y, cznv t)) =
    some (0x00, false, true, false, false) := by decide

/-- R104. -/
theorem test_sta : seen (probe [0x8D, 0x00, 0x02] (fun s => { s with a := 0x42 })) (fun t => (t.peek 0x0200, t.cycles)) =
    some (0x42, 4) := by decide

/-- Vector LS9 of spec/95_test_vectors.md: the pointer is indexed before the indirection. -/
theorem test_sta_izx : seen (probe [0x81, 0x20] (fun s => { s with a := 0xAB, x := 0x04 }.place 0x0024 [0x00, 0x30]))
    (fun t => (t.peek 0x3000, t.cycles)) = some (0xAB, 6) := by decide

/-- R105. -/
theorem test_stx : seen (probe [0x96, 0xF0] (fun s => { s with x := 0x07, y := 0x20 })) (fun t => t.peek 0x0010) =
    some 0x07 := by decide

/-- R106. -/
theorem test_sty : seen (probe [0x84, 0x10] (fun s => { s with y := 0x99 })) (fun t => t.peek 0x0010) = some 0x99 := by
  decide

/-- R111: signed overflow. -/
theorem test_adc : seen (probe [0x69, 0x01] (fun s => { s with a := 0x7F })) (fun t => (t.a, cznv t)) =
    some (0x80, false, false, true, true) := by decide

/-- R111: the carry wraps a full byte to 0. -/
theorem test_adc_wraps : seen (probe [0x69, 0x00] (fun s => withC { s with a := 0xFF })) (fun t => (t.a, cznv t)) =
    some (0x00, true, true, false, false) := by decide

/-- R113. -/
theorem test_sbc : seen (probe [0xE9, 0xF0] (fun s => withC { s with a := 0x50 })) (fun t => (t.a, cznv t)) =
    some (0x60, false, false, false, false) := by decide

/-- R113: a borrow in. -/
theorem test_sbc_borrow : seen (probe [0xE9, 0x05] (fun s => { s with a := 0x05 })) (fun t => (t.a, cznv t)) =
    some (0xFF, false, false, true, false) := by decide

/-- R121. -/
theorem test_and : seen (probe [0x29, 0x3C] (fun s => { s with a := 0xF0 })) (fun t => t.a) = some 0x30 := by decide

/-- R122. -/
theorem test_ora : seen (probe [0x09, 0x80] (fun s => { s with a := 0x0F })) (fun t => t.a) = some 0x8F := by decide

/-- R123. -/
theorem test_eor : seen (probe [0x49, 0xFF] (fun s => { s with a := 0xAA })) (fun t => t.a) = some 0x55 := by decide

/-- R124. -/
theorem test_bit : seen (probe [0x24, 0x10] (fun s => { s with a := 0x01 }.place 0x0010 [0xC0])) (fun t => (t.a, cznv t)) =
    some (0x01, false, true, true, true) := by decide

/-- R131. -/
theorem test_asl : seen (probe [0x0A] (fun s => { s with a := 0x81 })) (fun t => (t.a, cznv t)) =
    some (0x02, true, false, false, false) := by decide

/-- R132. -/
theorem test_lsr : seen (probe [0x4A] (fun s => { s with a := 0x03 })) (fun t => (t.a, cznv t)) =
    some (0x01, true, false, false, false) := by decide

/-- R133. -/
theorem test_rol : seen (probe [0x2A] (fun s => withC { s with a := 0x80 })) (fun t => (t.a, cznv t)) =
    some (0x01, true, false, false, false) := by decide

/-- R134, R135: in memory, one read and one write at the same address. -/
theorem test_ror : seen (probe [0x66, 0x10] (fun s => withC (s.place 0x0010 [0x01]))) (fun t => (t.busLog.drop 2, cznv t)) =
    some ([.read 0x0010 0x01, .write 0x0010 0x80], true, false, true, false) := by decide

/-- R141. -/
theorem test_bpl : seen (probe [0x10, 0x02] id) (fun t => t.pc) = some 0x0604 := by decide

/-- R142: a branch to itself. -/
theorem test_bmi : seen (probe [0x30, 0xFE] (withFlags false false true false)) (fun t => (t.pc, t.cycles)) =
    some (0x0600, 3) := by decide

/-- R143. -/
theorem test_bvc : seen (probe [0x50, 0x10] id) (fun t => t.pc) = some 0x0612 := by decide

/-- R144: not taken. -/
theorem test_bvs : seen (probe [0x70, 0x10] id) (fun t => (t.pc, t.cycles)) = some (0x0602, 2) := by decide

/-- R145. -/
theorem test_bcc : seen (probe [0x90, 0x7F] id) (fun t => t.pc) = some 0x0681 := by decide

/-- R146: 126 bytes back from the opcode, into another page. -/
theorem test_bcs : seen (probe [0xB0, 0x80] withC) (fun t => (t.pc, t.cycles)) = some (0x0582, 4) := by decide

/-- R147. -/
theorem test_bne : seen (probe [0xD0, 0xFB] id) (fun t => t.pc) = some 0x05FD := by decide

/-- R148: taken to the next instruction, and counted as taken. -/
theorem test_beq : seen (probe [0xF0, 0x00] (withFlags false true false false)) (fun t => (t.pc, t.cycles)) =
    some (0x0602, 3) := by decide

/-- R155. -/
theorem test_jmp : seen (probe [0x4C, 0x34, 0x12] id) (fun t => t.pc) = some 0x1234 := by decide

/-- R156: the pointer's high byte from the start of the same page. -/
theorem test_jmp_pageWrap : seen (probe [0x6C, 0xFF, 0x02]
      (fun s => ((s.place 0x02FF [0x34]).place 0x0200 [0x12]).place 0x0300 [0x56])) (fun t => t.pc) = some 0x1234 := by
  decide

/-- R157, with the opcode at 0x0600, so the pushed address is 0x0602. -/
theorem test_jsr : seen (probe [0x20, 0x34, 0x12] id) (fun t => (t.pc, t.sp, t.peek 0x01FD, t.peek 0x01FC)) =
    some (0x1234, 0xFB, 0x06, 0x02) := by decide

/-- R157: with SP 0x00 the high byte goes to 0x0100 and the low byte to 0x01FF. -/
theorem test_jsr_wraps : seen (probe [0x20, 0x34, 0x12] (fun s => { s with sp := 0x00 }))
    (fun t => (t.sp, t.peek 0x0100, t.peek 0x01FF)) = some (0xFE, 0x06, 0x02) := by decide

/-- R158. -/
theorem test_rts : seen (probe [0x60] (fun s => { s with sp := 0xFB }.place 0x01FC [0xFF, 0x05])) (fun t => (t.pc, t.sp)) =
    some (0x0600, 0xFD) := by decide

/-- R158: the popped address wraps. -/
theorem test_rts_wraps : seen (probe [0x60] (fun s => { s with sp := 0xFB }.place 0x01FC [0xFF, 0xFF])) (fun t => t.pc) =
    some 0x0000 := by decide

/-- R165. -/
theorem test_pha : seen (probe [0x48] (fun s => { s with a := 0x42 })) (fun t => (t.peek 0x01FD, t.sp)) =
    some (0x42, 0xFC) := by decide

/-- R166. -/
theorem test_pla : seen (probe [0x68] (fun s => { s with sp := 0xFC }.place 0x01FD [0x80])) (fun t => (t.a, t.sp, cznv t)) =
    some (0x80, 0xFD, false, false, true, false) := by decide

/-- R167. -/
theorem test_php : seen (probe [0x08] id) (fun t => (t.peek 0x01FD, t.sp)) = some (0x34, 0xFC) := by decide

/-- R168. -/
theorem test_plp : seen (probe [0x28] (fun s => { s with sp := 0xFC }.place 0x01FD [0xC3]))
    (fun t => (t.flags, t.sp)) = some (⟨true, true, false, false, false, true, true⟩, 0xFD) := by decide

/-- R168: bits 5 and 4 of the pulled byte are ignored, the stored B stays. -/
theorem test_plp_ignores : seen (probe [0x28] (fun s => { s with sp := 0xFC }.place 0x01FD [0x30])) (fun t => t.flags) =
    some ⟨false, false, false, false, false, false, false⟩ := by decide

/-- R169. -/
theorem test_tsx : seen (probe [0xBA] id) (fun t => (t.x, cznv t)) = some (0xFD, false, false, true, false) := by decide

/-- R170. -/
theorem test_txs : seen (probe [0x9A] (fun s => { s with x := 0xFF })) (fun t => (t.sp, cznv t)) =
    some (0xFF, false, false, false, false) := by decide

/-- R180. -/
theorem test_clc : seen (probe [0x18] withC) (fun t => t.flags.c) = some false := by decide

/-- R181. -/
theorem test_sec : seen (probe [0x38] id) (fun t => t.flags.c) = some true := by decide

/-- R182. -/
theorem test_cli : seen (probe [0x58] id) (fun t => t.flags.i) = some false := by decide

/-- R183. -/
theorem test_sei : seen (probe [0x78] (fun s => { s with flags := { s.flags with i := false } })) (fun t => t.flags.i) =
    some true := by decide

/-- R184. -/
theorem test_cld : seen (probe [0xD8] (fun s => { s with flags := { s.flags with d := true } })) (fun t => t.flags.d) =
    some false := by decide

/-- R185. -/
theorem test_sed : seen (probe [0xF8] id) (fun t => t.flags.d) = some true := by decide

/-- R186. -/
theorem test_clv : seen (probe [0xB8] (withFlags false false false true)) (fun t => t.flags.v) = some false := by decide

/-- R190: after it PC is the opcode address plus 1 and nothing else changed but what the step reports. -/
theorem test_nop : step (probe [0xEA] id) =
    .next { probe [0xEA] id with pc := 0x0601, busLog := [.read 0x0600 0xEA], cycles := 2 } := rfl

/-- R191, with the opcode at 0x0600. -/
theorem test_brk : seen (probe [0x00] (fun s => (withFlags true true false false
      { s with flags := { s.flags with i := false } }).place 0xFFFE [0x00, 0x90]))
    (fun t => (t.pc, t.sp, t.flags.i, t.peek 0x01FD, t.peek 0x01FC, t.peek 0x01FB)) =
    some (0x9000, 0xFA, true, 0x06, 0x02, 0x33) := by decide

/-- R197. -/
theorem test_ill : seen (probe [0x02] id) (fun t => (t.pc, t.halted, t.cycles, Faulted t)) =
    some (0x0600, true, 0, true) := by decide

/-- R202. -/
theorem test_cmp : seen (probe [0xC9, 0x80] id) (fun t => cznv t) = some (false, false, true, false) := by decide

/-- R203. -/
theorem test_cpx : seen (probe [0xE0, 0x06] (fun s => { s with x := 0x05 })) (fun t => cznv t) =
    some (false, false, true, false) := by decide

/-- R204. -/
theorem test_cpy : seen (probe [0xC0, 0x00] (fun s => { s with y := 0xFF })) (fun t => cznv t) =
    some (true, false, true, false) := by decide

/-- R205: the wrap; C is not written. -/
theorem test_inc : seen (probe [0xE6, 0x10] (fun s => s.place 0x0010 [0xFF])) (fun t => (t.peek 0x0010, cznv t)) =
    some (0x00, false, true, false, false) := by decide

/-- R206. -/
theorem test_dec : seen (probe [0xCE, 0x00, 0x02] (fun s => s.place 0x0200 [0x80])) (fun t => (t.peek 0x0200, cznv t)) =
    some (0x7F, false, false, false, false) := by decide

/-- R207. -/
theorem test_inx : seen (probe [0xE8] (fun s => { s with x := 0x7F })) (fun t => (t.x, cznv t)) =
    some (0x80, false, false, true, false) := by decide

/-- R208. -/
theorem test_iny : seen (probe [0xC8] (fun s => { s with y := 0xFF })) (fun t => (t.y, cznv t)) =
    some (0x00, false, true, false, false) := by decide

/-- R209. -/
theorem test_dex : seen (probe [0xCA] (fun s => { s with x := 0x01 })) (fun t => (t.x, cznv t)) =
    some (0x00, false, true, false, false) := by decide

/-- R210. -/
theorem test_dey : seen (probe [0x88] (fun s => { s with y := 0x80 })) (fun t => (t.y, cznv t)) =
    some (0x7F, false, false, false, false) := by decide

/-- R211. -/
theorem test_tax : seen (probe [0xAA] (fun s => { s with x := 0x44 })) (fun t => (t.x, cznv t)) =
    some (0x00, false, true, false, false) := by decide

/-- R212. -/
theorem test_tay : seen (probe [0xA8] (fun s => { s with a := 0x90 })) (fun t => (t.y, cznv t)) =
    some (0x90, false, false, true, false) := by decide

/-- R213. -/
theorem test_txa : seen (probe [0x8A] (fun s => { s with x := 0x01 })) (fun t => (t.a, cznv t)) =
    some (0x01, false, false, false, false) := by decide

/-- R214. -/
theorem test_tya : seen (probe [0x98] (fun s => { s with y := 0xFF })) (fun t => (t.a, cznv t)) =
    some (0xFF, false, false, true, false) := by decide

/-- R215. -/
theorem test_rti : seen (probe [0x40] (fun s => { s with sp := 0xFA }.place 0x01FB [0x33, 0x02, 0x80]))
    (fun t => (t.pc, t.sp, t.flags)) = some (0x8002, 0xFD, ⟨true, true, false, false, false, false, false⟩) := by decide

/-! ### The first instruction after reset, as the host places it -/

theorem test_withFetchWord : step (State.reset.withFetchWord 24 0x1234AD) =
    exec (.lda (.abs 0x1234)) { State.reset.withFetchWord 24 0x1234AD with
      pc := 0x0003, busLog := fetchReads (State.reset.withFetchWord 24 0x1234AD) 3, cycles := 0 } := rfl

/-- R270, R271: the first step of a machine, with the reset vector 0x8000. -/
theorem test_reset_vector : seen (State.constructed State.reset.snapshot ((State.reset.place 0xFFFC [0x00, 0x80]).mem) [] 0 false)
    (fun t => (t.pc, t.flags.i, t.resPending, t.busLog)) =
    some (0x8000, true, false, [.read 0xFFFC 0x00, .read 0xFFFD 0x80]) := by decide

/-- A machine with a device at 0x2000 to 0x3FFF, in state 5. -/
def deviceMachine (bytes : List Byte) (f : State → State) : State :=
  probe bytes (fun s => f ((s.hostCompose [{ first := 0x2000, last := 0x3FFF }]).hostMoveDevice 5))

/-- R41, R50: the byte is the device's answer in its state, and the read leaves it in another state. -/
theorem test_device_read :
    seen (deviceMachine [0xAD, 0x02, 0x20] id) (fun t => (t.a, t.device, t.nmiPending)) =
      some ((Config.deviceRead 5 0x2002).1, (Config.deviceRead 5 0x2002).2.device, (Config.deviceRead 5 0x2002).2.nmi || false) :=
  rfl

/-- R41: a write to a device reaches the device and no RAM. -/
theorem test_device_write :
    seen (deviceMachine [0x8D, 0x00, 0x20] (fun s => { s with a := 0x42 }))
      (fun t => (t.device, t.mem == (deviceMachine [0x8D, 0x00, 0x20] id).mem, t.busLog.drop 3)) =
      some ((Config.deviceWrite 5 0x2000 0x42).device, true, [.write 0x2000 0x42]) := rfl

/-! ### The hypotheses of the obligations can be met -/

/-- A machine at a NOP with an NMI pending. -/
def nmiMachine : State := probe [0xEA] State.hostSetNmi

/-- A machine at a NOP with the IRQ line high and I clear. -/
def irqMachine : State := probe [0xEA] (fun s => { s with irqLine := true, flags := { s.flags with i := false } })

/-- A machine halted by an illegal opcode. -/
def haltedMachine : State := probe [0x02] (fun s => { s with halted := true })

theorem witness_DecodeOfEncodeIsIdentity :
    WellFormed (.ill 0xFF) = true ∧ WellFormed (.lda (.abx 0xFFFF)) = true ∧ WellFormed (.bpl 0x80) = true := by decide

theorem witness_EncodeOfDecodeIsIdentity : decode [0x6C, 0xFF, 0x02, 0x00] = .ok (.jmp (.ind 0x02FF), [0x00]) := rfl

theorem witness_PendingResetRunsResetSequence : (probe [0xEA] State.hostRequestReset).resPending = true := by decide

theorem witness_HaltedStepChangesNothing : haltedMachine.resPending = false ∧ haltedMachine.halted = true := by decide

theorem witness_PendingNmiIsServiced :
    nmiMachine.resPending = false ∧ nmiMachine.halted = false ∧ nmiMachine.nmiPending = true := by decide

theorem witness_UnmaskedIrqIsServiced :
    irqMachine.resPending = false ∧ irqMachine.halted = false ∧ irqMachine.nmiPending = false ∧
      irqMachine.irqLine = true ∧ irqMachine.flags.i = false := by decide

theorem witness_StepRunsDecodedInstruction :
    let s := probe [0xAD, 0x34, 0x12] id
    s.resPending = false ∧ s.halted = false ∧ s.nmiPending = false ∧ (s.irqLine = false ∨ s.flags.i = true) ∧
      decode (streamBytes s) = .ok (.lda (.abs 0x1234), []) :=
  ⟨rfl, rfl, rfl, .inl rfl, rfl⟩

theorem witness_StepKeepsMemoryCanonical :
    BusCanonical (probe [0x8D, 0x00, 0x02] id) ∧ ∃ t, step (probe [0x8D, 0x00, 0x02] id) = .next t := ⟨rfl, _, rfl⟩

theorem witness_StepIsItsBusAccesses : ∃ t, step (probe [0x20, 0x34, 0x12] id) = .next t := ⟨_, rfl⟩

theorem witness_BreakFlagIsInert : (probe [0x08] id).resPending = false ∧ ∃ t, step (probe [0x08] id) = .next t :=
  ⟨rfl, _, rfl⟩

theorem witness_OnlyIllegalOpcodesHalt :
    (∃ t, step (probe [0x02] id) = .next t ∧ t.halted = true) ∧ (∃ t, step haltedMachine = .next t ∧ t.halted = true) ∧
      ∃ t, step (haltedMachine.hostRequestReset) = .next t ∧ t.halted = false :=
  ⟨⟨_, rfl, rfl⟩, ⟨_, rfl, rfl⟩, _, rfl, rfl⟩

theorem witness_PendingLatchesAcrossStep :
    nmiMachine.windows = [] ∧ (∃ t, step nmiMachine = .next t ∧ t.nmiPending = false) ∧
      ∃ t, step nmiMachine.hostRequestReset = .next t ∧ t.nmiPending = true := ⟨rfl, ⟨_, rfl, rfl⟩, _, rfl, rfl⟩

theorem witness_MaskedIrqLineIsUnseen :
    (probe [0xEA] id).flags.i = true ∧ (probe [0xEA] id).windows = [] ∧ ∃ t, step (probe [0xEA] id) = .next t :=
  ⟨rfl, rfl, _, rfl⟩

/-- The first and the last address of a window are the device's, their neighbours are not. -/
theorem witness_BusAccessReachesRamOrDevice :
    (deviceMachine [] id).hasDevice 0x2000 = true ∧ (deviceMachine [] id).hasDevice 0x3FFF = true ∧
      (deviceMachine [] id).hasDevice 0x1FFF = false ∧ (deviceMachine [] id).hasDevice 0x4000 = false ∧
      (probe [] id).windows = [] := by decide

/-- A machine whose devices are elsewhere, with the stack pointer where a push wraps. -/
theorem witness_RtsUndoesJsr : StackIsRam (deviceMachine [0x20, 0x34, 0x12] (fun s => { s with sp := 0x00 })) := by
  unfold StackIsRam
  decide

theorem witness_RtiUndoesServiceSequence : StackIsRam nmiMachine ∧ StackIsRam irqMachine := ⟨fun _ => rfl, fun _ => rfl⟩

/-- R65: INC in ABX takes 7. -/
theorem witness_CycleCountBounds :
    seen (probe [0xFE, 0x00, 0x02] id) State.cycles = some 7 ∧ seen haltedMachine State.cycles = some 0 := by decide

/-- Each of the four Servicing states, and Running. -/
theorem witness_FsmReportsServicedEvent :
    nmiMachine.hostRequestReset.fsmDuring = .servicingReset ∧ nmiMachine.fsmDuring = .servicingNmi ∧
      irqMachine.fsmDuring = .servicingIrq ∧ (probe [0x00] id).fsmDuring = .servicingBrk ∧
      (probe [0xEA] id).fsmDuring = .running := by decide

/-- R110 at the edges: the sums 255 and 256, 127 and 128, -128 and -129. -/
theorem witness_AdderIsExact :
    (aluAdc 0xFE 0x01 false).cout = false ∧ (aluAdc 0xFE 0x01 true).cout = true ∧
      (aluAdc 0x7E 0x01 false).vout = false ∧ (aluAdc 0x7E 0x01 true).vout = true ∧
      (aluAdc 0x81 0xFF false).vout = false ∧ (aluAdc 0x80 0xFF false).vout = true := by decide

/-- R88: base 0x12F0 with X 0x0F stays in the page, with 0x10 it crosses. -/
theorem witness_ResolverFollowsModeTable :
    (resolve (.abx 0x12F0) (probe [] (fun s => { s with x := 0x0F }))).crossed = false ∧
      (resolve (.abx 0x12F0) (probe [] (fun s => { s with x := 0x10 }))).crossed = true ∧
      (resolve (.abx 0xFFFF) (probe [] (fun s => { s with x := 0x01 }))).ea = 0x0000 := by decide

/-- R149: the branch at 0x80FD, so PC is 0x80FF. -/
theorem witness_BranchesFollowTheirFlag :
    (branched 0x00 true { probe [] id with pc := 0x80FF }).cycles = 3 ∧
      (branched 0x01 true { probe [] id with pc := 0x80FF }).cycles = 4 ∧
      (branched 0x01 false { probe [] id with pc := 0x80FF }).cycles = 2 := by decide

/-- R90: below 0xFF the pointer's high byte is at the next address. -/
theorem witness_JmpSetsPc : seen (probe [0x6C, 0xFE, 0x02] (fun s => s.place 0x02FE [0x00, 0x90])) State.pc =
    some 0x9000 := by decide

theorem witness_HostSetWritesOneField : HostFlag.c ≠ HostFlag.n := by decide

end Sys2Proof.Tests
end

section
/-! SUPPORT. The bus of the machine and the bus of the statements: the two primitives `memRead` and `memWrite` do what
`accessed` says (spec/20_memory.md R41, R50, R54), and all that one access and a list of accesses can change. -/

namespace Sys2Proof.Safety

open Sys2Proof.Machine

variable {s : State} {a : Word}

/-! ### One access -/

theorem hasDevice_iff (s : State) (a : Word) :
    s.hasDevice a = true ↔ ∃ w ∈ s.windows, w.first ≤ a.toNat ∧ a.toNat ≤ w.last := by
  simp [State.hasDevice]

/-- R41: in its window a device answers, in its present state. -/
theorem peek_device (h : s.hasDevice a = true) : s.peek a = (Config.deviceRead s.device a).1 := by
  simp [State.peek, h]

/-- R50: a read is the reaction of what stands at the address, logged. -/
theorem accessed_read (s : State) (a : Word) (v : Byte) :
    accessed s (.read a v) = (s.react (s.readReaction a)).logBus (.read a v) := by
  cases h : s.hasDevice a with
  | true =>
    cases hr : (Config.deviceRead s.device a).2.irq <;>
      simp [accessed, State.readReaction, State.react, State.logBus, h, hr]
  | false =>
    rw [State.readReaction_ram h, State.react_idle]
    simp [accessed, h, State.logBus]

theorem memRead_eq_accessed (s : State) (a : Word) :
    s.memRead a = (s.peek a, accessed s (.read a (s.peek a))) := by
  rw [accessed_read, State.memRead]

theorem memWrite_eq_accessed (s : State) (a : Word) (v : Byte) : s.memWrite a v = accessed s (.write a v) := by
  cases h : s.hasDevice a with
  | true =>
    cases hr : (Config.deviceWrite s.device a v).irq <;>
      simp [accessed, State.memWrite, State.writeReaction, State.ramAfterWrite, State.react, State.setMem, State.logBus,
        h, hr]
  | false =>
    rw [State.memWrite_ram h]
    simp [accessed, h, State.logBus, State.setMem]

/-- All that one access can change. -/
theorem accessed_eq (s : State) (e : BusAccess) :
    accessed s e =
      { s with
        mem := (accessed s e).mem
        device := (accessed s e).device
        irqLine := (accessed s e).irqLine
        nmiPending := (accessed s e).nmiPending
        busLog := s.busLog ++ [e] } := by
  cases e with
  | read a v =>
    rw [accessed_read]
    rfl
  | write a v =>
    rw [← memWrite_eq_accessed]
    rfl

@[simp] theorem accessed_windows (s : State) (e : BusAccess) : (accessed s e).windows = s.windows := by
  rw [accessed_eq]

@[simp] theorem accessed_read_mem (s : State) (a : Word) (v : Byte) : (accessed s (.read a v)).mem = s.mem := by
  rw [accessed_read]
  rfl

/-- R54: on a bus without devices an access can change the RAM and the list only. -/
theorem accessed_of_noWindows (h : s.windows = []) (e : BusAccess) :
    accessed s e = { s with mem := (accessed s e).mem, busLog := s.busLog ++ [e] } := by
  cases e with
  | read a v =>
    rw [accessed_read, State.readReaction_ram (State.hasDevice_of_noWindows h a), State.react_idle]
    rfl
  | write a v =>
    rw [← memWrite_eq_accessed, State.memWrite_ram (State.hasDevice_of_noWindows h a)]
    rfl

/-! ### A list of accesses -/

@[simp] theorem busAfter_nil (s : State) : busAfter s [] = s := rfl

@[simp] theorem busAfter_cons (s : State) (e : BusAccess) (es : List BusAccess) :
    busAfter s (e :: es) = busAfter (accessed s e) es := rfl

/-- All that a list of accesses can change. -/
theorem busAfter_eq (s : State) (es : List BusAccess) :
    busAfter s es =
      { s with
        mem := (busAfter s es).mem
        device := (busAfter s es).device
        irqLine := (busAfter s es).irqLine
        nmiPending := (busAfter s es).nmiPending
        busLog := s.busLog ++ es } := by
  induction es generalizing s with
  | nil => simp
  | cons e es ih =>
    rw [busAfter_cons, ih, accessed_eq]
    simp

/-- R54: on a bus without devices a list of accesses can change the RAM and the list only. -/
theorem busAfter_of_noWindows (h : s.windows = []) (es : List BusAccess) :
    busAfter s es = { s with mem := (busAfter s es).mem, busLog := s.busLog ++ es } := by
  induction es generalizing s with
  | nil => simp
  | cons e es ih =>
    rw [busAfter_cons, ih ((accessed_windows s e).trans h), accessed_of_noWindows h]
    simp

/-- R50: reads, whatever the devices do, write no RAM. -/
theorem busAfter_readsOf_mem (s : State) (addrs : List Word) : (busAfter s (readsOf s addrs)).mem = s.mem := by
  induction addrs generalizing s with
  | nil => rfl
  | cons a addrs ih => rw [readsOf, busAfter_cons, ih, accessed_read_mem]

/-- Settles O60: the primitives are the accesses of the statements, and the frames of an access carry over to a list by
induction. -/
theorem busAccessReachesRamOrDevice : Obligations.BusAccessReachesRamOrDevice := by
  intro s a v
  exact ⟨memRead_eq_accessed s a, memWrite_eq_accessed s a v, hasDevice_iff s a, peek_device,
    fun h => ⟨State.peek_ram h, State.peek_memWrite_same s h v⟩,
    fun es => ⟨busAfter_eq s es, fun h => busAfter_of_noWindows h es⟩,
    busAfter_readsOf_mem s⟩

end Sys2Proof.Safety
end

section
/-! SUPPORT. What a run of the machine's operations does: it makes bus accesses and writes registers, so its effect on the
bus's side is that of its accesses done again (spec/20_memory.md R48, R49), and it leaves the two control latches of
spec/10_state.md R32, R33 alone. One lemma per shared operation, one for every legal instruction, one for a step. -/

namespace Sys2Proof.Safety

open Sys2Proof.Machine

variable {s t t' u : State} {es fs : List BusAccess}

/-! ### States that the bus cannot tell apart -/

/-- The two states agree in all that an access depends on and all that it changes, its place on the list apart. -/
structure SameBus (s t : State) : Prop where
  mem : s.mem = t.mem
  windows : s.windows = t.windows
  device : s.device = t.device
  irqLine : s.irqLine = t.irqLine
  nmiPending : s.nmiPending = t.nmiPending

theorem SameBus.symm (h : SameBus s t) : SameBus t s :=
  ⟨h.mem.symm, h.windows.symm, h.device.symm, h.irqLine.symm, h.nmiPending.symm⟩

theorem SameBus.trans (h : SameBus s t) (h' : SameBus t u) : SameBus s u :=
  ⟨h.mem.trans h'.mem, h.windows.trans h'.windows, h.device.trans h'.device, h.irqLine.trans h'.irqLine,
    h.nmiPending.trans h'.nmiPending⟩

theorem SameBus.peek_eq (h : SameBus s t) (a : Word) : s.peek a = t.peek a :=
  State.peek_congr h.mem h.windows h.device a

theorem SameBus.accessed (h : SameBus s t) (e : BusAccess) : SameBus (accessed s e) (accessed t e) := by
  cases s
  cases t
  obtain ⟨rfl, rfl, rfl, rfl, rfl⟩ := h
  cases e with
  | read a v =>
    rw [accessed_read, accessed_read]
    exact ⟨rfl, rfl, rfl, rfl, rfl⟩
  | write a v =>
    rw [← memWrite_eq_accessed, ← memWrite_eq_accessed]
    exact ⟨rfl, rfl, rfl, rfl, rfl⟩

/-! ### Doing a list of accesses again -/

theorem replay_append (es fs : List BusAccess) (s : State) : replay (es ++ fs) s = (replay es s).bind (replay fs) := by
  induction es generalizing s with
  | nil => rfl
  | cons e es ih =>
    cases e with
    | read a v =>
      simp only [List.cons_append, replay]
      split
      · exact ih _
      · rfl
    | write a v => exact ih _

/-- A list that can be done again leads where its accesses lead. -/
theorem busAfter_of_replay (h : replay es s = some u) : busAfter s es = u := by
  induction es generalizing s with
  | nil => exact Option.some.inj h
  | cons e es ih =>
    cases e with
    | read a v =>
      simp only [replay] at h
      split at h
      · exact ih h
      · cases h
    | write a v => exact ih h

theorem SameBus.replay (hb : SameBus s t) (h : replay es s = some u) : ∃ u', replay es t = some u' ∧ SameBus u u' := by
  induction es generalizing s t with
  | nil =>
    cases h
    exact ⟨t, rfl, hb⟩
  | cons e es ih =>
    cases e with
    | read a v =>
      simp only [Safety.replay] at h ⊢
      rw [← hb.peek_eq a]
      split at h
      · rename_i hv
        rw [if_pos hv]
        exact ih (hb.accessed _) h
      · cases h
    | write a v => exact ih (hb.accessed _) h

/-! ### Runs of operations -/

/-- The accesses listed from `s` to `t`, done again from `s`, give the bus's side of `t` (R48, R49). -/
def Replays (s t : State) : Prop := ∃ es u, t.busLog = s.busLog ++ es ∧ replay es s = some u ∧ SameBus u t

/-- From `s` to `t` only bus accesses were made and registers, flags and the cycle count written. -/
structure Evolves (s t : State) : Prop where
  bus : Replays s t
  resPending : t.resPending = s.resPending
  halted : t.halted = s.halted

theorem Replays.of_sameBus (h : SameBus s t) (hl : t.busLog = s.busLog) : Replays s t := ⟨[], s, by simp [hl], rfl, h⟩

theorem Replays.trans (h : Replays s t) (h' : Replays t u) : Replays s u := by
  obtain ⟨es, v, hl, hr, hb⟩ := h
  obtain ⟨fs, w, hl', hr', hb'⟩ := h'
  obtain ⟨x, hx, hwx⟩ := hb.symm.replay hr'
  exact ⟨es ++ fs, x, by rw [hl', hl, List.append_assoc], by rw [replay_append, hr]; exact hx, hwx.symm.trans hb'⟩

theorem Evolves.refl (s : State) : Evolves s s := ⟨.of_sameBus ⟨rfl, rfl, rfl, rfl, rfl⟩ rfl, rfl, rfl⟩

theorem Evolves.trans (h : Evolves s t) (h' : Evolves t u) : Evolves s u :=
  ⟨h.bus.trans h'.bus, h'.resPending.trans h.resPending, h'.halted.trans h.halted⟩

/-- Registers, flags and the cycle count are written: `restore` writes the former (R38). -/
theorem Evolves.regs (h : Evolves s t) (ht : t' = (t.restore t'.snapshot).setCycles t'.cycles) : Evolves s t' := by
  rw [ht]
  exact h.trans ⟨.of_sameBus ⟨rfl, rfl, rfl, rfl, rfl⟩ rfl, rfl, rfl⟩

theorem Evolves.setPc (h : Evolves s t) (w : Word) : Evolves s (t.setPc w) := h.regs rfl

theorem Evolves.setSp (h : Evolves s t) (v : Byte) : Evolves s (t.setSp v) := h.regs rfl

theorem Evolves.setFlags (h : Evolves s t) (f : Flags) : Evolves s (t.setFlags f) := h.regs rfl

theorem Evolves.setCycles (h : Evolves s t) (k : Nat) : Evolves s (t.setCycles k) := h.regs rfl

theorem evolves_memRead (s : State) (a : Word) : Evolves s (s.memRead a).2 := by
  refine ⟨⟨[.read a (s.peek a)], accessed s (.read a (s.peek a)), rfl, by simp [replay], ?_⟩, rfl, rfl⟩
  rw [memRead_eq_accessed]
  exact ⟨rfl, rfl, rfl, rfl, rfl⟩

theorem evolves_memWrite (s : State) (a : Word) (v : Byte) : Evolves s (s.memWrite a v) := by
  refine ⟨⟨[.write a v], accessed s (.write a v), rfl, rfl, ?_⟩, rfl, rfl⟩
  rw [memWrite_eq_accessed]
  exact ⟨rfl, rfl, rfl, rfl, rfl⟩

/-! ### The stack, the vectors, the instruction stream -/

theorem evolves_push (s : State) (v : Byte) : Evolves s (s.push v) := (evolves_memWrite s _ v).setSp _

theorem evolves_pop (s : State) : Evolves s s.pop.2 := 
  ((Evolves.refl s).setSp _).trans (evolves_memRead _ _)

theorem evolves_pushWord (s : State) (w : Word) : Evolves s (s.pushWord w) :=
  (evolves_push s _).trans (evolves_push _ _)

theorem evolves_popWord (s : State) : Evolves s s.popWord.2 := (evolves_pop s).trans (evolves_pop _)

theorem evolves_loadPcFrom (s : State) (vec : Word) : Evolves s (s.loadPcFrom vec) :=
  ((evolves_memRead s vec).trans (evolves_memRead _ (vec + 1))).setPc _

theorem evolves_service (s : State) (k : IntKind) : Evolves s (s.service k) :=
  (((evolves_pushWord s s.pc).trans (evolves_push _ _)).setFlags _).trans (evolves_loadPcFrom _ _)

theorem evolves_returnFromInterrupt (s : State) : Evolves s s.returnFromInterrupt :=
  (((evolves_pop s).setFlags _).trans (evolves_popWord _)).setPc _

theorem evolves_fetchByte (s : State) : Evolves s s.fetchByte.2 := (evolves_memRead s s.pc).setPc _

theorem evolves_fetchDecode (s : State) : Evolves s s.fetchDecode.2 := by
  have h0 := evolves_fetchByte s
  simp only [State.fetchDecode]
  split
  · exact h0
  · exact h0.trans (evolves_fetchByte _)
  · exact h0.trans ((evolves_fetchByte _).trans (evolves_fetchByte _))

/-! ### The operand forms -/

theorem evolves_readPointer (s : State) (p : Byte) : Evolves s (s.readPointer p).2 :=
  (evolves_memRead s _).trans (evolves_memRead _ _)

theorem evolves_resolve (m : AddrForm) (s : State) : Evolves s (resolve m s).st := by
  cases m with
  | izx z => exact evolves_readPointer s _
  | izy z => exact evolves_readPointer s _
  | zp z | zpx z | zpy z | abs w | abx w | aby w => exact .refl s

theorem evolves_resolveIndirect (ptr : Word) (s : State) : Evolves s (resolveIndirect ptr s).2 :=
  (evolves_memRead s _).trans (evolves_memRead _ _)

theorem evolves_readMem (m : AddrForm) (s : State) : Evolves s (readMem m s).st :=
  (evolves_resolve m s).trans (evolves_memRead _ _)

theorem evolves_readOperand (f : ReadForm) (s : State) : Evolves s (readOperand f s).st := by
  cases f with
  | imm v => exact .refl s
  | mem m => exact evolves_readMem m s

theorem evolves_storeOperand (m : AddrForm) (v : Byte) (s : State) : Evolves s (storeOperand m v s).st :=
  (evolves_resolve m s).trans (evolves_memWrite _ _ v)

theorem evolves_modifyOperand (f : RmwForm) (g : Byte → Byte) (s : State) : Evolves s (modifyOperand f g s).st := by
  cases f with
  | acc => exact (Evolves.refl s).regs rfl
  | mem m => exact (evolves_readMem m s).trans (evolves_memWrite _ _ _)

/-! ### Instructions -/

/-- Every instruction but an illegal one has a next state, reached by accesses and register writes. -/
theorem exec_evolves {i : Instr} (hi : ∀ b, i ≠ .ill b) (s : State) : ∃ t, exec i s = .next t ∧ Evolves s t := by
  cases i with
  | ill b => exact absurd rfl (hi b)
  | lda o | ldx o | ldy o | adc o | sbc o | and o | ora o | eor o | cmp o | cpx o | cpy o =>
    exact ⟨_, rfl, (evolves_readOperand o.toRead s).regs rfl⟩
  | sta o | stx o | sty o => exact ⟨_, rfl, (evolves_storeOperand o.toAddr _ s).regs rfl⟩
  | bit o => exact ⟨_, rfl, (evolves_readMem o.toAddr s).regs rfl⟩
  | asl o | lsr o | rol o | ror o => exact ⟨_, rfl, (evolves_modifyOperand o.toRmw _ s).regs rfl⟩
  | inc o | dec o => exact ⟨_, rfl, ((evolves_modifyOperand (.mem o.toAddr) _ s).setFlags _).setCycles _⟩
  | jmp o =>
    cases o with
    | abs w => exact ⟨_, rfl, (Evolves.refl s).regs rfl⟩
    | ind ptr => exact ⟨_, rfl, (evolves_resolveIndirect ptr s).regs rfl⟩
  | jsr w => exact ⟨_, rfl, (evolves_pushWord s _).regs rfl⟩
  | rts => exact ⟨_, rfl, (evolves_popWord s).regs rfl⟩
  | pha | php => exact ⟨_, rfl, (evolves_push s _).regs rfl⟩
  | pla | plp => exact ⟨_, rfl, (evolves_pop s).regs rfl⟩
  | brk => exact ⟨_, rfl, (((Evolves.refl s).setPc _).trans (evolves_service _ .brk)).setCycles _⟩
  | rti => exact ⟨_, rfl, (evolves_returnFromInterrupt s).setCycles _⟩
  | bpl d | bmi d | bvc d | bvs d | bcc d | bcs d | bne d | beq d | tsx | txs | clc | sec | cli | sei | cld | sed | clv
  | nop | inx | iny | dex | dey | tax | tay | txa | tya => exact ⟨_, rfl, (Evolves.refl s).regs rfl⟩

end Sys2Proof.Safety
end

section
/-! SUPPORT. What the opcode byte says about halting, one lemma for all that a step does to the bus's side and to the
control latches, and from it the statements on the latches (spec/10_state.md R30 to R33). -/

namespace Sys2Proof.Safety

open Sys2Proof.Machine

variable {s t : State}

/-! ### The opcode byte -/

/-- No instruction of the layout is an illegal opcode. -/
def Documented : Layout → Prop
  | .bare i => ∀ b, i ≠ .ill b
  | .byteArg f => ∀ v b, f v ≠ .ill b
  | .wordArg g => ∀ w b, g w ≠ .ill b

/-- R64: every filled cell. -/
theorem documented_of_mem_matrix : ∀ row ∈ matrix, ∀ l, some l ∈ row → Documented l := by
  simp [matrix, matrixRow0, matrixRow1, matrixRow2, matrixRow3, matrixRow4, matrixRow5, matrixRow6, matrixRow7,
    matrixRow8, matrixRow9, matrixRowA, matrixRowB, matrixRowC, matrixRowD, matrixRowE, matrixRowF, oneByte, twoBytes,
    threeBytes, Documented]

/-- R66: the empty cells of the matrix, in rising order, are the bytes listed. -/
theorem emptyCells_eq :
    ((List.range 256).filter fun n => (cellOf (BitVec.ofNat 8 n)).isNone) = illegalBytes.map BitVec.toNat := by
  decide

theorem cellOf_isNone_iff (b : Byte) : (cellOf b).isNone = true ↔ b ∈ illegalBytes := by
  have hmem : b.toNat ∈ illegalBytes.map BitVec.toNat ↔ b ∈ illegalBytes :=
    List.mem_map_of_injective fun _ _ => BitVec.eq_of_toNat_eq
  rw [← hmem, ← emptyCells_eq]
  simp [b.isLt]

theorem layoutOf_illegal {b : Byte} (h : b ∈ illegalBytes) : layoutOf b = .bare (.ill b) :=
  layoutOf_of_no_cell (Option.isNone_iff_eq_none.mp ((cellOf_isNone_iff b).mpr h))

theorem layoutOf_documented {b : Byte} (h : b ∉ illegalBytes) : Documented (layoutOf b) := by
  rcases hc : cellOf b with _ | l
  · exact absurd ((cellOf_isNone_iff b).mp (by rw [hc]; rfl)) h
  · rw [layoutOf, hc]
    have hrow : b.toNat / 16 < matrix.length := by
      have hlen : matrix.length = 16 := rfl
      omega
    rw [cellOf, List.getD_eq_getElem _ _ hrow] at hc
    rcases Nat.lt_or_ge (b.toNat % 16) (matrix[b.toNat / 16]).length with hcol | hcol
    · rw [List.getD_eq_getElem _ _ hcol] at hc
      exact documented_of_mem_matrix _ (List.getElem_mem hrow) l (hc ▸ List.getElem_mem hcol)
    · rw [List.getD_eq_default _ _ hcol] at hc
      cases hc

theorem fetchDecode_illegal (h : s.peek s.pc ∈ illegalBytes) :
    s.fetchDecode = (.ill (s.peek s.pc), s.fetchByte.2) := by
  rw [State.fetchDecode, State.fetchByte_eq]
  simp only [layoutOf_illegal h]

theorem fetchDecode_documented (h : s.peek s.pc ∉ illegalBytes) (b : Byte) : s.fetchDecode.1 ≠ .ill b := by
  have hd := layoutOf_documented h
  simp only [State.fetchDecode, State.fetchByte_eq]
  split <;> rename_i hl <;> rw [hl] at hd
  · exact hd b
  · exact hd _ b
  · exact hd _ b

/-! ### One step -/

/-- The step from `s` fetches an illegal opcode byte (R236 case 5, R66). -/
def FetchesIllegal (s : State) : Prop := s.boundary = .fetch ∧ s.peek s.pc ∈ illegalBytes

/-- The state from which the accesses of a step are made: the outputs of the step before and the latches of the event it
services cleared (R237). -/
def started (s : State) : State :=
  { s with
    nmiPending := latchAtStart s
    resPending := false
    halted := s.halted && !s.resPending
    busLog := []
    cycles := 0 }

theorem sameBus_started (s : State) : SameBus { s with nmiPending := latchAtStart s } (started s) :=
  ⟨rfl, rfl, rfl, rfl, rfl⟩

theorem started_of_reset (h : s.resPending = true) :
    started s = (s.beginStep.setResPending false).setHalted false := by
  simp [started, latchAtStart, h, State.beginStep, State.setResPending, State.setHalted]

theorem started_of_halted (h : s.resPending = false) (h' : s.halted = true) : started s = s.beginStep := by
  simp [started, latchAtStart, h, h', State.beginStep]

theorem started_of_nmi (h : s.resPending = false) (h' : s.halted = false) :
    started s = s.beginStep.setNmiPending false := by
  simp [started, latchAtStart, h, h', State.beginStep, State.setNmiPending]

theorem started_of_quiet (h : s.resPending = false) (h' : s.halted = false) (hn : s.nmiPending = false) :
    started s = s.beginStep := by
  simp [started, latchAtStart, h, h', hn, State.beginStep]

/-- The reset sequence clears the two control latches whatever they were; between its register writes and that it only
reads the vector (R270). -/
theorem evolves_resetStep (s : State) : Evolves ((s.setResPending false).setHalted false) s.resetStep := by
  refine ⟨?_, rfl, rfl⟩
  simp only [State.resetStep, State.resetSequence]
  exact (Replays.of_sameBus ⟨rfl, rfl, rfl, rfl, rfl⟩ rfl).trans
    ((evolves_loadPcFrom _ Config.vecReset).bus.trans (.of_sameBus ⟨rfl, rfl, rfl, rfl, rfl⟩ rfl))

/-- Every step is accesses and register writes from `started s`, and one that fetches an illegal byte halts after them. -/
theorem step_evolves (h : step s = .next t) :
    (¬ FetchesIllegal s ∧ Evolves (started s) t) ∨
      (FetchesIllegal s ∧ ∃ p, Evolves (started s) p ∧ t = ((p.setPc (p.pc - 1)).setHalted true).setCycles 0) := by
  cases hb : s.boundary with
  | reset =>
    cases (step_of_reset hb).symm.trans h
    rw [started_of_reset (boundary_reset_iff.mp hb)]
    exact .inl ⟨by simp [FetchesIllegal, hb], evolves_resetStep _⟩
  | halted =>
    cases (step_of_halted hb).symm.trans h
    obtain ⟨hres, hhalt⟩ := boundary_halted_iff.mp hb
    rw [started_of_halted hres hhalt]
    exact .inl ⟨by simp [FetchesIllegal, hb], .refl _⟩
  | nmi =>
    cases (step_of_nmi hb).symm.trans h
    obtain ⟨hres, hhalt, -⟩ := boundary_nmi_iff.mp hb
    rw [started_of_nmi hres hhalt]
    exact .inl ⟨by simp [FetchesIllegal, hb], (evolves_service _ _).setCycles _⟩
  | irq =>
    cases (step_of_irq hb).symm.trans h
    obtain ⟨hres, hhalt, hnmi, -⟩ := boundary_irq_iff.mp hb
    rw [started_of_quiet hres hhalt hnmi]
    exact .inl ⟨by simp [FetchesIllegal, hb], (evolves_service _ _).setCycles _⟩
  | fetch =>
    rw [step_of_fetch hb] at h
    obtain ⟨hres, hhalt, hnmi, -⟩ := boundary_fetch_iff.mp hb
    rw [started_of_quiet hres hhalt hnmi]
    by_cases hill : s.peek s.pc ∈ illegalBytes
    · rw [fetchDecode_illegal (s := s.beginStep) hill] at h
      exact .inr ⟨⟨hb, hill⟩, _, evolves_fetchByte _, (Host.Outcome.next.inj h).symm⟩
    · obtain ⟨u, hu, hev⟩ := exec_evolves (fetchDecode_documented (s := s.beginStep) hill) s.beginStep.fetchDecode.2
      cases h.symm.trans hu
      exact .inl ⟨fun hf => hill hf.2, (evolves_fetchDecode _).trans hev⟩

/-- A step's list of accesses, done again, gives the bus's side of the next state. -/
theorem step_replays (h : step s = .next t) :
    ∃ u, replay t.busLog { s with nmiPending := latchAtStart s } = some u ∧ SameBus u t := by
  have hrun : Replays (started s) t := by
    rcases step_evolves h with ⟨-, hev⟩ | ⟨-, p, hev, rfl⟩
    · exact hev.bus
    · exact hev.bus.trans (.of_sameBus ⟨rfl, rfl, rfl, rfl, rfl⟩ rfl)
  obtain ⟨es, v, hlog, hreplay, hbus⟩ := hrun
  obtain ⟨u, hu, hvu⟩ := (sameBus_started s).symm.replay hreplay
  have hes : t.busLog = es := hlog
  exact ⟨u, hes ▸ hu, hvu.symm.trans hbus⟩

theorem step_resPending (h : step s = .next t) : t.resPending = false := by
  rcases step_evolves h with ⟨-, hev⟩ | ⟨-, p, hev, rfl⟩
  · exact hev.resPending
  · exact hev.resPending

theorem fetchesIllegal_iff :
    FetchesIllegal s ↔ (s.resPending = false ∧ s.halted = false ∧ s.nmiPending = false ∧
      (s.irqLine = false ∨ s.flags.i = true)) ∧ s.peek s.pc ∈ illegalBytes := by
  rw [FetchesIllegal, boundary_fetch_iff]

/-- Settles O54: a step that fetches an illegal byte sets `halted`, any other leaves it as
it was, but for a reset, which clears it. -/
theorem onlyIllegalOpcodesHalt : Obligations.OnlyIllegalOpcodesHalt := by
  intro s t h
  rcases step_evolves h with ⟨hlegal, hev⟩ | ⟨hill, p, -, rfl⟩
  · have hkept : t.halted = (s.halted && !s.resPending) := hev.halted
    rw [fetchesIllegal_iff] at hlegal
    rw [hkept]
    cases hh : s.halted <;> cases hr : s.resPending <;> simp_all
  · obtain ⟨⟨hres, -, hnmi, hirq⟩, hbyte⟩ := fetchesIllegal_iff.mp hill
    exact iff_of_true rfl ⟨hres, .inr ⟨hnmi, hirq, hbyte⟩⟩

/-- Settles O55: the list of accesses done again gives the line, the latch and the windows; without devices none of its
accesses touches them. -/
theorem pendingLatchesAcrossStep : Obligations.PendingLatchesAcrossStep := by
  intro s t h
  obtain ⟨u, hu, hbus⟩ := step_replays h
  have hafter := busAfter_of_replay hu
  have hframe := busAfter_eq { s with nmiPending := latchAtStart s } t.busLog
  dsimp only
  rw [hafter] at hframe ⊢
  have hwindows : u.windows = s.windows := by rw [hframe]
  refine ⟨step_resPending h, hbus.windows.symm.trans hwindows, hbus.irqLine.symm, hbus.nmiPending.symm, fun hw => ?_⟩
  have hquiet := busAfter_of_noWindows (s := { s with nmiPending := latchAtStart s }) hw t.busLog
  rw [hafter] at hquiet
  have hline : u.irqLine = s.irqLine := by rw [hquiet]
  have hlatch : u.nmiPending = latchAtStart s := by rw [hquiet]
  exact ⟨hbus.irqLine.symm.trans hline, by rw [← hbus.nmiPending, hlatch]; simp [latchAtStart]⟩

end Sys2Proof.Safety
end

section
/-! SUPPORT. The stored Break flag is inert (spec/10_state.md R23, R27, R28): every operation of the machine does the same
to a state with another B as to the state itself. The bus and the stack do not read the flags and `statusByte` does not read
B, so for them it holds by `rfl`; one lemma per operand form, one for the instructions. -/

namespace Sys2Proof.Safety

open Sys2Proof.Machine

/-- The state with the stored Break flag at `v`, as the host's `set` writes it (R37). -/
def withB (v : Bool) (s : State) : State := s.hostSetFlag .b v

/-- A result with another next state. -/
def onNext (g : State → State) : Result → Result
  | .next t => .next (g t)
  | .fault r => .fault r
  | .refused r => .refused r

variable (v : Bool) (s : State)

/-! ### The instruction stream -/

theorem fetchByte_withB : (withB v s).fetchByte = (s.fetchByte.1, withB v s.fetchByte.2) := rfl

theorem fetchDecode_withB : (withB v s).fetchDecode = (s.fetchDecode.1, withB v s.fetchDecode.2) := by
  simp only [State.fetchDecode, fetchByte_withB]
  split <;> rfl

/-! ### The operand forms -/

theorem resolve_withB (m : AddrForm) :
    resolve m (withB v s) = { resolve m s with st := withB v (resolve m s).st } := by
  cases m <;> rfl

theorem readMem_withB (m : AddrForm) :
    readMem m (withB v s) = { readMem m s with st := withB v (readMem m s).st } := by
  simp only [readMem_eq, resolve_withB]
  rfl

theorem readOperand_withB (f : ReadForm) :
    readOperand f (withB v s) = { readOperand f s with st := withB v (readOperand f s).st } := by
  cases f with
  | imm w => rfl
  | mem m => exact readMem_withB v s m

theorem storeOperand_withB (m : AddrForm) (w : Byte) :
    storeOperand m w (withB v s) = { storeOperand m w s with st := withB v (storeOperand m w s).st } := by
  simp only [storeOperand, resolve_withB]
  rfl

theorem modifyOperand_withB (f : RmwForm) (g : Byte → Byte) :
    modifyOperand f g (withB v s) = { modifyOperand f g s with st := withB v (modifyOperand f g s).st } := by
  cases f with
  | acc => rfl
  | mem m =>
    simp only [modifyOperand_mem, resolve_withB]
    rfl

/-! ### Instructions -/

theorem exec_withB (i : Instr) : exec i (withB v s) = onNext (withB v) (exec i s) := by
  cases i with
  | lda o | ldx o | ldy o => simp only [exec, execLda, execLdx, execLdy, loadRegister, readOperand_withB]; rfl
  | adc o | sbc o => simp only [exec, execAdc, execSbc, addToA, readOperand_withB]; rfl
  | and o | ora o | eor o => simp only [exec, execAnd, execOra, execEor, combineA, readOperand_withB]; rfl
  | cmp o | cpx o | cpy o => simp only [exec, execCmp, execCpx, execCpy, compareWith, readOperand_withB]; rfl
  | sta o | stx o | sty o => simp only [exec, execSta, execStx, execSty, storeRegister, storeOperand_withB]; rfl
  | bit o => simp only [exec, execBit, readMem_withB]; rfl
  | asl o | lsr o | rol o | ror o =>
    simp only [exec, execAsl, execLsr, execRol, execRor, shiftOperand, modifyOperand_withB]; rfl
  | inc o | dec o => simp only [exec, execInc, execDec, stepMemory, modifyOperand_withB]; rfl
  | jmp o => cases o <;> rfl
  | bpl d | bmi d | bvc d | bvs d | bcc d | bcs d | bne d | beq d | jsr w | rts | pha | pla | php | plp | tsx | txs | clc
  | sec | cli | sei | cld | sed | clv | nop | brk | ill b | inx | iny | dex | dey | tax | tay | txa | tya | rti => rfl

/-! ### The step -/

theorem boundary_withB : (withB v s).boundary = s.boundary := rfl

theorem step_withB (h : s.resPending = false) : step (withB v s) = onNext (withB v) (step s) := by
  have hb := boundary_withB v s
  cases hs : s.boundary with
  | reset =>
    rw [boundary_reset_iff, h] at hs
    cases hs
  | halted =>
    rw [step_of_halted hs, step_of_halted (hb.trans hs)]
    rfl
  | nmi =>
    rw [step_of_nmi hs, step_of_nmi (hb.trans hs)]
    rfl
  | irq =>
    rw [step_of_irq hs, step_of_irq (hb.trans hs)]
    rfl
  | fetch =>
    have hstart : (withB v s).beginStep = withB v s.beginStep := rfl
    rw [step_of_fetch hs, step_of_fetch (hb.trans hs), hstart, fetchDecode_withB]
    exact exec_withB _ _ _

/-- Settles O53: a step commutes with setting B, and setting B to what it is in `s` changes nothing, so the next state has
it too. -/
theorem breakFlagIsInert : Obligations.BreakFlagIsInert := by
  intro s t v hres h
  have hcommute : ∀ w, step (withB w s) = .next (withB w t) := fun w => by rw [step_withB w s hres, h]; rfl
  refine ⟨hcommute v, ?_⟩
  have hself : withB s.flags.b s = s := rfl
  have hkept := hcommute s.flags.b
  rw [hself, h] at hkept
  have ht : t = withB s.flags.b t := Host.Outcome.next.inj hkept
  exact (congrArg (fun u => u.flags.b) ht).trans rfl

end Sys2Proof.Safety
end

section
/-! SUPPORT. The status byte and the flags (spec/10_state.md R26 to R29), the controller's states (R34), the host's moves
(R37, R38), and the reset state (R39). -/

namespace Sys2Proof.Safety

open Sys2Proof.Machine

/-! ### Bits of a byte -/

theorem getLsbD_eq_bitOf (v : Byte) (k : Nat) : v.getLsbD k = bitOf v k := by
  rw [bitOf, BitVec.getLsbD, Nat.testBit_eq_decide_div_mod_eq]

theorem getLsbD_seven_eq_decide (v : Byte) : v.getLsbD 7 = decide (128 ≤ v.toNat) :=
  (BitVec.msb_eq_getLsbD_last v).symm.trans (BitVec.msb_eq_decide v)

theorem beq_zero_eq_decide (v : Byte) : (v == 0x00) = decide (v.toNat = 0) := by
  rw [Bool.eq_iff_iff, beq_iff_eq, decide_eq_true_iff]
  exact BitVec.toNat_inj.symm

/-- R29. -/
theorem setZN_eq_withZN (f : Flags) (v : Byte) : f.setZN v = withZN f v := by
  rw [Flags.setZN, withZN, getLsbD_seven_eq_decide, beq_zero_eq_decide]

/-- R28. -/
theorem fromByte_eq_pulledFlags (f : Flags) (v : Byte) : f.fromByte v = pulledFlags f v := by
  simp only [Flags.fromByte, pulledFlags, getLsbD_eq_bitOf]

/-- A flag bit has its flag at its place and 0 elsewhere. -/
theorem flagBit_getLsbD (k j : Nat) (f : Bool) (hj : j < 8) : (flagBit k f).getLsbD j = (f && decide (k = j)) := by
  cases f with
  | false => simp [flagBit]
  | true =>
    simp only [flagBit, if_true, BitVec.getLsbD_shiftLeft, BitVec.getLsbD_one, Bool.true_and, hj, decide_true,
      Nat.zero_lt_succ]
    rw [Bool.eq_iff_iff]
    simp
    omega

/-- R26, R27. -/
theorem statusByte_eq_statusValue (f : Flags) (b4 : Bool) : f.statusByte b4 = BitVec.ofNat 8 (statusValue f b4) := by
  obtain ⟨c, z, i, d, b, v, n⟩ := f
  have h : ∀ c z i d v n b4 : Bool,
      (Flags.statusByte ⟨c, z, i, d, false, v, n⟩ b4) = BitVec.ofNat 8 (statusValue ⟨c, z, i, d, false, v, n⟩ b4) := by
    decide
  exact h c z i d v n b4

/-- Settles O5: Z says the byte is 0 and N that it is at least 128, which exclude each other; 1 is neither. -/
theorem setZNFollowsResultByte : Obligations.SetZNFollowsResultByte := by
  intro f v
  refine ⟨setZN_eq_withZN f v, ?_, 1, rfl, rfl⟩
  rw [setZN_eq_withZN]
  rintro ⟨hz, hn⟩
  have hzero : v.toNat = 0 := of_decide_eq_true hz
  have hneg : 128 ≤ v.toNat := of_decide_eq_true hn
  omega

/-- Settles O6, by the packing as a number. -/
theorem statusBytePacking : Obligations.StatusBytePacking := statusByte_eq_statusValue

/-- Settles O7: bit `k` of a byte is its `k`-th binary digit. -/
theorem pulledByteSetsFlags : Obligations.PulledByteSetsFlags := fromByte_eq_pulledFlags

/-- Settles O8: each bit of the packed byte is the one flag packed at its place. -/
theorem pushedStatusPullsBack : Obligations.PushedStatusPullsBack := by
  intro f g b4
  simp only [Flags.fromByte, Flags.statusByte, BitVec.getLsbD_or, flagBit_getLsbD, Nat.reduceLT]
  simp

/-! ### Reset -/

theorem joinBytes_eq_ofNat (hi lo : Byte) : joinBytes hi lo = BitVec.ofNat 16 (lo.toNat + 256 * hi.toNat) := by
  apply BitVec.eq_of_toNat_eq
  rw [toNat_joinBytes, BitVec.toNat_ofNat]
  omega

theorem busAfter_twoReads (s : State) (lo hi : Word) :
    busAfter s (twoReads s lo hi) = ((s.memRead lo).2.memRead hi).2 := by
  rw [memRead_eq_accessed, memRead_eq_accessed]
  rfl

theorem joinBytes_peek_eq_wordAt (s : State) (lo hi : Word) :
    joinBytes ((s.memRead lo).2.peek hi) (s.peek lo) = BitVec.ofNat 16 (wordAt s lo hi) := by
  rw [joinBytes_eq_ofNat, wordAt, memRead_eq_accessed]

/-- R236 case 1, R270. -/
theorem resetStep_eq_afterReset (s : State) : s.beginStep.resetStep = afterReset s := by
  rw [afterReset, busAfter_twoReads, ← joinBytes_peek_eq_wordAt]
  rfl

theorem step_of_resPending {s : State} (h : s.resPending = true) : step s = .next (afterReset s) := by
  rw [step_of_reset (boundary_reset_iff.mpr h), resetStep_eq_afterReset]

/-- Settles O43: a constructed machine has a reset pending, and an empty bus reads as 0. -/
theorem firstStepLeavesResetState : Obligations.FirstStepLeavesResetState := by
  intro r mem ws device irq
  exact ⟨step_of_resPending rfl, step_of_resPending rfl⟩

/-- Settles O51: the RAM of the reset state has no cell. -/
theorem resetMemoryIsCanonical : Obligations.ResetMemoryIsCanonical := rfl

/-! ### The controller -/

/-- R237: the Servicing states by the case of the boundary; only a fetch looks at the byte at PC. -/
theorem fsmDuring_iff (s : State) :
    (s.fsmDuring = .servicingReset ↔ s.boundary = .reset) ∧ (s.fsmDuring = .servicingNmi ↔ s.boundary = .nmi) ∧
    (s.fsmDuring = .servicingIrq ↔ s.boundary = .irq) ∧
    (s.fsmDuring = .servicingBrk ↔ s.boundary = .fetch ∧ s.peek s.pc = 0x00) := by
  have hop : opcodeOf .brk = 0#8 := rfl
  rw [State.fsmDuring]
  cases s.boundary with
  | reset | halted | nmi | irq => simp
  | fetch => by_cases h : s.peek s.pc = 0#8 <;> simp [h, hop]

/-- Settles O49: the conditions of R236 are those of the boundary's cases. -/
theorem fsmReportsServicedEvent : Obligations.FsmReportsServicedEvent := by
  intro s
  have h := fsmDuring_iff s
  rw [boundary_reset_iff, boundary_nmi_iff, boundary_irq_iff, boundary_fetch_iff] at h
  simpa only [and_assoc] using h

/-! ### The host -/

/-- Settles O58: snapshot and restore name the same twelve values. -/
theorem restoreWritesTwelveValues : Obligations.RestoreWritesTwelveValues := fun _ _ => ⟨rfl, rfl, rfl⟩

theorem loByte_eq_ofNat (w : Word) : loByte w = BitVec.ofNat 8 w.toNat := by
  apply BitVec.eq_of_toNat_eq
  rw [toNat_loByte, BitVec.toNat_ofNat]

theorem hostGetFlag_hostSetFlag (s : State) (f g : HostFlag) (q : Bool) :
    (s.hostSetFlag f q).hostGetFlag g = if g = f then q else s.hostGetFlag g := by
  cases f <;> cases g <;> rfl

theorem hostSetFlag_eq (s : State) (f : HostFlag) (q : Bool) :
    s.hostSetFlag f q = { s with flags := (s.hostSetFlag f q).flags } := by
  cases f <;> rfl

/-- Settles O59: which flag `set` writes and which `get` reads, case by case. -/
theorem hostSetWritesOneField : Obligations.HostSetWritesOneField := by
  intro s w q
  rw [← loByte_eq_ofNat]
  refine ⟨rfl, rfl, rfl, rfl, rfl, fun f => ⟨?_, fun g hg => ?_, hostSetFlag_eq s f q⟩⟩
  · rw [hostGetFlag_hostSetFlag, if_pos rfl]
  · rw [hostGetFlag_hostSetFlag, if_neg hg]

end Sys2Proof.Safety
end

section
/-! SUPPORT. The rules of the bus over a whole step (spec/20_memory.md R42, R48, R49, R54): the RAM stays in canonical form,
a step always has a next state, and its effect on the bus's side is that of its list of accesses. -/

namespace Sys2Proof.Safety

open Sys2Proof.Machine

variable {s : State}

/-! ### The canonical form of the RAM -/

/-- R54: a read leaves the RAM alone, and a write keeps the form. -/
theorem busCanonical_accessed (h : BusCanonical s) (e : BusAccess) : BusCanonical (accessed s e) := by
  cases e with
  | read a v => rwa [BusCanonical, accessed_read_mem]
  | write a v =>
    rw [← memWrite_eq_accessed]
    exact State.wf_memWrite s h a v

theorem busCanonical_busAfter (h : BusCanonical s) (es : List BusAccess) : BusCanonical (busAfter s es) := by
  induction es generalizing s with
  | nil => exact h
  | cons e es ih => exact ih (busCanonical_accessed h e)

/-- Settles O50: the RAM after a step is the RAM after its list of accesses, each of which keeps the form. -/
theorem stepKeepsMemoryCanonical : Obligations.StepKeepsMemoryCanonical := by
  intro s t hs h
  obtain ⟨u, hreplay, hbus⟩ := step_replays h
  have hstart : BusCanonical { s with nmiPending := latchAtStart s } := hs
  have hu : BusCanonical u := busAfter_of_replay hreplay ▸ busCanonical_busAfter hstart t.busLog
  rwa [BusCanonical, ← hbus.mem]

/-! ### A step always answers a next state -/

/-- R197, R248: an illegal opcode halts, which is a next state; every other instruction runs to one. -/
theorem exec_next (i : Instr) (s : State) : ∃ t, exec i s = .next t := by
  by_cases hi : ∃ b, i = .ill b
  · obtain ⟨b, rfl⟩ := hi
    exact ⟨_, rfl⟩
  · obtain ⟨t, ht, -⟩ := exec_evolves (not_exists.mp hi) s
    exact ⟨t, ht⟩

/-- Settles O48: the service sequences, reset and a halted core answer a next state as they stand, and a fetch answers what
`exec` does. -/
theorem everyStepHasNextState : Obligations.EveryStepHasNextState := by
  intro s
  cases hb : s.boundary with
  | reset => exact ⟨_, step_of_reset hb⟩
  | halted => exact ⟨_, step_of_halted hb⟩
  | nmi => exact ⟨_, step_of_nmi hb⟩
  | irq => exact ⟨_, step_of_irq hb⟩
  | fetch =>
    rw [step_of_fetch hb]
    exact exec_next _ _

/-! ### A step is its bus accesses -/

/-- Settles O52: the replay of the list and the next state are the same to the bus. -/
theorem stepIsItsBusAccesses : Obligations.StepIsItsBusAccesses := by
  intro s t h
  obtain ⟨u, hreplay, hbus⟩ := step_replays h
  exact ⟨u, hreplay, hbus.mem.symm, hbus.device.symm, hbus.irqLine.symm, hbus.nmiPending.symm⟩

end Sys2Proof.Safety
end

section
/-! SUPPORT. The decoder's matrix and the encoder's opcode list held against each other (spec/30_encoding.md R60 to R66): the
cell that R65 sends an instruction to makes that instruction, and what a cell of R64 makes is spelled with that cell's byte.
The two round trips follow, since decoding is making what the cell of the first byte makes from the bytes after it. -/

namespace Sys2Proof

open Sys2Proof.Safety

variable {b : Byte} {bs rest : List Byte} {i : Instr}

/-! ### What a cell makes, and from which bytes -/

/-- The instruction a layout makes from the operand byte `v` or the operand word `w`, whichever it takes. -/
def Layout.instr (v : Byte) (w : Word) : Layout → Instr
  | .bare i => i
  | .byteArg f => f v
  | .wordArg g => g w

/-- The operand bytes it takes them from: low byte first (R62). -/
def Layout.operandBytes (v : Byte) (w : Word) : Layout → List Byte
  | .bare _ => []
  | .byteArg _ => [v]
  | .wordArg _ => [loByte w, hiByte w]

theorem decode_operandBytes (b v : Byte) (w : Word) (rest : List Byte) :
    decode (b :: ((layoutOf b).operandBytes v w ++ rest)) = .ok ((layoutOf b).instr v w, rest) := by
  cases h : layoutOf b with
  | bare i => exact decode_bare h rest
  | byteArg f => exact decode_byteArg h v rest
  | wordArg g => exact decode_word h w rest

/-- Nothing else is decoded. -/
theorem decode_ok_cases (h : decode bs = .ok (i, rest)) :
    ∃ b v w, bs = b :: ((layoutOf b).operandBytes v w ++ rest) ∧ i = (layoutOf b).instr v w := by
  rcases bs with _ | ⟨b, bs⟩
  · cases h
  · refine ⟨b, ?_⟩
    simp only [decode] at h
    split at h
    · cases h
      rename_i hl
      exact ⟨0, 0, by rw [hl]; exact ⟨rfl, rfl⟩⟩
    · cases h
      rename_i v hl
      exact ⟨v, 0, by rw [hl]; exact ⟨rfl, rfl⟩⟩
    · cases h
      rename_i lo hi hl
      exact ⟨0, joinBytes hi lo, by simp [hl, Layout.operandBytes, Layout.instr]⟩
    all_goals cases h

/-! ### The two tables against each other -/

/-- The operand byte of a form that has one. -/
def Operand.byteArg : Operand → Byte
  | .imm b | .zp b | .zpx b | .zpy b | .izx b | .izy b | .rel b => b
  | _ => 0

/-- The operand word of a form that has one. -/
def Operand.wordArg : Operand → Word
  | .abs w | .abx w | .aby w | .ind w => w
  | _ => 0

theorem wellFormed_ill_iff : WellFormed (.ill b) = true ↔ b ∈ illegalBytes := List.contains_iff_mem

/-- R65 into R64: one cell for each form of each mnemonic. The opcode byte has to stand as a number before the cell can be
looked up by `rfl`. -/
theorem instr_layoutOf_opcodeOf (h : WellFormed i = true) :
    (layoutOf (opcodeOf i)).instr (operandOf i).byteArg (operandOf i).wordArg = i := by
  cases i with
  | ill b =>
    rw [opcodeOf, layoutOf_illegal (wellFormed_ill_iff.mp h)]
    rfl
  | lda o | ldx o | ldy o | sta o | stx o | sty o | adc o | sbc o | and o | ora o | eor o | bit o | asl o | lsr o | rol o
  | ror o | jmp o | cmp o | cpx o | cpy o | inc o | dec o =>
    cases o <;> dsimp only [opcodeOf, AluOperand.pick, LdxOperand.pick, LdyOperand.pick, StaOperand.pick, StxOperand.pick,
      StyOperand.pick, BitOperand.pick, ShiftOperand.pick, JmpOperand.pick, CmpOperand.pick, IncOperand.pick] <;> rfl
  | bpl d | bmi d | bvc d | bvs d | bcc d | bcs d | bne d | beq d | jsr w | rts | pha | pla | php | plp | tsx | txs | clc
  | sec | cli | sei | cld | sed | clv | nop | brk | inx | iny | dex | dey | tax | tay | txa | tya | rti =>
    dsimp only [opcodeOf]
    rfl

/-- R64 into R65: row by row, column by column, empty cells included. -/
theorem encode_cells (v : Byte) (w : Word) :
    ((List.range 16).map fun r => (List.range 16).map fun c =>
        encode ((layoutOf (BitVec.ofNat 8 (16 * r + c))).instr v w)) =
      (List.range 16).map fun r => (List.range 16).map fun c =>
        BitVec.ofNat 8 (16 * r + c) :: (layoutOf (BitVec.ofNat 8 (16 * r + c))).operandBytes v w := by
  exact rfl

theorem encode_instr_layoutOf (b v : Byte) (w : Word) :
    encode ((layoutOf b).instr v w) = b :: (layoutOf b).operandBytes v w := by
  have hrow : b.toNat / 16 < 16 := by omega
  have hcol : b.toNat % 16 < 16 := by omega
  have hcell := List.map_inj_left.mp (encode_cells v w) _ (List.mem_range.mpr hrow)
  have h := List.map_inj_left.mp hcell _ (List.mem_range.mpr hcol)
  rwa [Nat.div_add_mod, BitVec.ofNat_toNat, BitVec.setWidth_eq] at h

theorem wellFormed_of_ne_ill (h : ∀ b, i ≠ .ill b) : WellFormed i = true := by
  cases i with
  | ill b => exact absurd rfl (h b)
  | _ => rfl

/-- R66: `ill` is made in the empty cells only. -/
theorem wellFormed_instr_layoutOf (b v : Byte) (w : Word) : WellFormed ((layoutOf b).instr v w) = true := by
  by_cases hb : b ∈ illegalBytes
  · rw [layoutOf_illegal hb]
    exact wellFormed_ill_iff.mpr hb
  · have hd := layoutOf_documented hb
    generalize layoutOf b = l at hd ⊢
    cases l with
    | bare i => exact wellFormed_of_ne_ill hd
    | byteArg f => exact wellFormed_of_ne_ill (hd v)
    | wordArg g => exact wellFormed_of_ne_ill (hd w)

/-! ### The round trips -/

/-- Settles O1: the bytes of an instruction are those of its own cell, and that cell makes it again. -/
theorem decodeOfEncodeIsIdentity : Obligations.DecodeOfEncodeIsIdentity := by
  intro i rest h
  have hmade := instr_layoutOf_opcodeOf h
  have hbytes := encode_instr_layoutOf (opcodeOf i) (operandOf i).byteArg (operandOf i).wordArg
  have hdecode := decode_operandBytes (opcodeOf i) (operandOf i).byteArg (operandOf i).wordArg rest
  rw [hmade] at hbytes hdecode
  rw [hbytes]
  exact hdecode

/-- Settles O2: what is decoded is made by the cell of the first byte, hence spelled with it. -/
theorem encodeOfDecodeIsIdentity : Obligations.EncodeOfDecodeIsIdentity := by
  intro bs rest i h
  obtain ⟨b, v, w, rfl, rfl⟩ := decode_ok_cases h
  exact ⟨wellFormed_instr_layoutOf b v w, by rw [encode_instr_layoutOf]; rfl⟩

/-- R60: three bytes are enough for any opcode byte. -/
theorem decode_three (b0 b1 b2 : Byte) (rest : List Byte) : ∃ i r, decode (b0 :: b1 :: b2 :: rest) = .ok (i, r) := by
  cases h : layoutOf b0 with
  | bare i => exact ⟨_, _, decode_bare h _⟩
  | byteArg f => exact ⟨_, _, decode_byteArg h _ _⟩
  | wordArg g => exact ⟨_, _, decode_wordArg h _ _ _⟩

/-- Settles O3: the first byte is the opcode byte of what is decoded by the round trip, and `ill` is well-formed for the
bytes of R66 only. -/
theorem everyOpcodeByteDecodes : Obligations.EveryOpcodeByteDecodes := by
  intro b0 b1 b2 rest
  obtain ⟨i, r, h⟩ := decode_three b0 b1 b2 rest
  obtain ⟨hwf, hbytes⟩ := encodeOfDecodeIsIdentity _ _ _ h
  refine ⟨i, r, h, (List.cons.inj hbytes).1, fun hill => ?_, fun hi => ?_⟩
  · rw [decode_bare (layoutOf_illegal hill)] at h
    cases h
    rfl
  · exact wellFormed_ill_iff.mp (hi ▸ hwf)

/-- Settles O4: the matrix read at the twelve first bytes. -/
theorem writtenOutBytesDecode : Obligations.WrittenOutBytesDecode :=
  ⟨rfl, rfl, rfl, rfl, rfl, rfl, rfl, rfl, rfl, rfl, rfl, rfl⟩

end Sys2Proof
end

section
/-! SUPPORT. The cycle count of a step (spec/30_encoding.md R65, R68; spec/60_exceptions.md R246, R249): every instruction but
an illegal opcode ends in `retire`, whose count is a sum over the tables of R65 and R68. -/

namespace Sys2Proof.Safety

open Sys2Proof.Machine

variable {s t : State} {i : Instr}

/-! ### One instruction -/

/-- R248: every instruction but an illegal one ends by retiring. -/
theorem exec_retires (hi : ∀ b, i ≠ .ill b) (s : State) :
    ∃ (u : State) (crossed taken : Bool), exec i s = u.retire i crossed taken := by
  cases i with
  | ill b => exact absurd rfl (hi b)
  | jmp o => cases o <;> exact ⟨_, _, _, rfl⟩
  | _ => exact ⟨_, _, _, rfl⟩

/-- R65, R66: the opcode byte of a documented instruction is none of R66. -/
theorem opcodeOf_not_mem_illegalBytes (hi : ∀ b, i ≠ .ill b) : opcodeOf i ∉ illegalBytes := by
  intro hill
  have hmade := instr_layoutOf_opcodeOf (wellFormed_of_ne_ill hi)
  rw [layoutOf_illegal hill] at hmade
  exact hi _ hmade.symm

/-- R65: the base count of every opcode byte R66 does not list. -/
theorem baseCycles_bounds : ∀ b : Byte, 2 ≤ baseCycles b ∧ baseCycles b ≤ 7 ∨ b ∈ illegalBytes := by decide

/-- R68: an indexed read starts from at most 5, so the penalty keeps it below 7. -/
theorem baseCycles_of_cross : ∀ b ∈ crossOpcodes, baseCycles b ≤ 5 := List.all_iff_forall_prop.mp (by decide)

theorem baseCycles_of_branch : ∀ b ∈ branchOpcodes, baseCycles b = 2 := List.all_iff_forall_prop.mp (by decide)

theorem penaltyOf_cases (b : Byte) :
    penaltyOf b = .cross ∧ b ∈ crossOpcodes ∨ penaltyOf b = .branch ∧ b ∈ branchOpcodes ∨ penaltyOf b = .none := by
  rw [penaltyOf]
  split
  · exact .inl ⟨rfl, List.contains_iff_mem.mp ‹_›⟩
  · split
    · exact .inr (.inl ⟨rfl, List.contains_iff_mem.mp ‹_›⟩)
    · exact .inr (.inr rfl)

/-- R68: with every penalty that can be added. -/
theorem stepCycles_bounds {b : Byte} (hb : b ∉ illegalBytes) (crossed taken : Bool) :
    2 ≤ stepCycles b crossed taken ∧ stepCycles b crossed taken ≤ 7 := by
  obtain ⟨hlo, hhi⟩ := (baseCycles_bounds b).resolve_right hb
  rw [stepCycles]
  rcases penaltyOf_cases b with ⟨hp, hmem⟩ | ⟨hp, hmem⟩ | hp
  · have := baseCycles_of_cross b hmem
    cases crossed <;> simp [hp] <;> omega
  · have := baseCycles_of_branch b hmem
    cases crossed <;> cases taken <;> simp [hp] <;> omega
  · simp [hp, hlo, hhi]

/-- A documented instruction leaves `halted` alone and reports 2 to 7 cycles. -/
theorem exec_cycles (hi : ∀ b, i ≠ .ill b) (h : exec i s = .next t) :
    t.halted = s.halted ∧ 2 ≤ t.cycles ∧ t.cycles ≤ 7 := by
  obtain ⟨t', ht, hev⟩ := exec_evolves hi s
  cases ht.symm.trans h
  obtain ⟨u, crossed, taken, hu⟩ := exec_retires hi s
  rw [State.retire_eq] at hu
  refine ⟨hev.halted, ?_⟩
  rw [Host.Outcome.next.inj (h.symm.trans hu), State.setCycles_cycles]
  exact stepCycles_bounds (opcodeOf_not_mem_illegalBytes hi) crossed taken

/-! ### One step -/

/-- What the statement says of the count a state reports. -/
def CyclesFit (t : State) : Prop := t.cycles ≤ 7 ∧ (t.cycles = 0 ↔ t.halted = true) ∧ t.cycles ≠ 1

theorem cyclesFit_of_running (hh : t.halted = false) (hlo : 2 ≤ t.cycles) (hhi : t.cycles ≤ 7) : CyclesFit t := by
  simp [CyclesFit, hh]
  omega

theorem cyclesFit_of_halted (hh : t.halted = true) (hc : t.cycles = 0) : CyclesFit t := by
  simp [CyclesFit, hh, hc]

/-- R246. -/
theorem resetCycles_bounds : 2 ≤ Config.resetCycles ∧ Config.resetCycles ≤ 7 := by decide

theorem intCycles_bounds : 2 ≤ Config.intCycles ∧ Config.intCycles ≤ 7 := by decide

/-- Settles O57: reset and the service sequences report their own count and leave the core running, a halted core and an
illegal opcode report 0, and any other instruction reports what `exec_cycles` says. -/
theorem cycleCountBounds : Obligations.CycleCountBounds := by
  intro s t h
  change CyclesFit t
  cases hb : s.boundary with
  | reset =>
    cases (step_of_reset hb).symm.trans h
    exact cyclesFit_of_running rfl resetCycles_bounds.1 resetCycles_bounds.2
  | halted =>
    cases (step_of_halted hb).symm.trans h
    exact cyclesFit_of_halted (boundary_halted_iff.mp hb).2 rfl
  | nmi =>
    cases (step_of_nmi hb).symm.trans h
    have hkept := (evolves_service (s.beginStep.setNmiPending false) .nmi).halted
    exact cyclesFit_of_running (hkept.trans (boundary_nmi_iff.mp hb).2.1) intCycles_bounds.1 intCycles_bounds.2
  | irq =>
    cases (step_of_irq hb).symm.trans h
    have hkept := (evolves_service s.beginStep .irq).halted
    exact cyclesFit_of_running (hkept.trans (boundary_irq_iff.mp hb).2.1) intCycles_bounds.1 intCycles_bounds.2
  | fetch =>
    obtain ⟨-, hrun, -⟩ := boundary_fetch_iff.mp hb
    rw [step_of_fetch hb] at h
    by_cases hill : s.peek s.pc ∈ illegalBytes
    · rw [fetchDecode_illegal (s := s.beginStep) hill] at h
      cases h
      exact cyclesFit_of_halted rfl rfl
    · have hdocumented := fetchDecode_documented (s := s.beginStep) hill
      obtain ⟨hkept, hlo, hhi⟩ := exec_cycles hdocumented h
      have hfetch := (evolves_fetchDecode s.beginStep).halted
      exact cyclesFit_of_running (hkept.trans (hfetch.trans hrun)) hlo hhi

end Sys2Proof.Safety
end

section
/-! SUPPORT. The resolver of spec/40_addressing_modes.md against the table of R96: every memory mode is a base address,
read from the pointer where it has one, plus an index, 0 where none is carried. -/

namespace Sys2Proof.Safety

open Sys2Proof.Machine

/-! ### Page 0 and pointers -/

theorem zeroPage_eq_ofNat (z : Byte) : zeroPage z = BitVec.ofNat 16 z.toNat := by
  apply BitVec.eq_of_toNat_eq
  rw [toNat_zeroPage, BitVec.toNat_ofNat]
  omega

/-- R85, R86: the sum of two bytes stays in page 0. -/
theorem zeroPage_add (z i : Byte) : zeroPage (z + i) = BitVec.ofNat 16 ((z.toNat + i.toNat) % 256) := by
  rw [zeroPage_eq_ofNat, BitVec.toNat_add]

/-- R91, R92: the second pointer byte wraps in page 0. -/
theorem zeroPage_succ (z : Byte) : zeroPage (z + 1) = BitVec.ofNat 16 ((z.toNat + 1) % 256) := zeroPage_add z 1

theorem zeroPage_add_succ (z i : Byte) :
    zeroPage (z + i + 1) = BitVec.ofNat 16 ((z.toNat + i.toNat + 1) % 256) := by
  rw [zeroPage_succ, BitVec.toNat_add, Nat.mod_add_mod]

theorem wordAt_lt (s : State) (lo hi : Word) : wordAt s lo hi < 65536 := by
  rw [wordAt]
  omega

/-- A pointer read is the two reads of the table and the word they give. -/
theorem readPointer_eq (s : State) (p : Byte) :
    s.readPointer p =
      (BitVec.ofNat 16 (wordAt s (zeroPage p) (zeroPage (p + 1))),
        busAfter s (twoReads s (zeroPage p) (zeroPage (p + 1)))) := by
  rw [busAfter_twoReads, ← joinBytes_peek_eq_wordAt]
  rfl

/-! ### A base and an index -/

theorem baseAddress_lt (m : AddrForm) (s : State) : baseAddress m s < 65536 := by
  cases m with
  | izx z | izy z => exact wordAt_lt s _ _
  | zp z | zpx z | zpy z | abs w | abx w | aby w =>
    simp only [baseAddress]
    omega

theorem carriedIndex_lt (m : AddrForm) (s : State) : carriedIndex m s < 256 := by
  cases m <;> simp only [carriedIndex] <;> omega

/-- R94: the high byte changes exactly when the low byte and the index carry out of the page, at 0xFFFF too. -/
theorem pageCrossed_add_zeroPage (base : Word) (i : Byte) :
    pageCrossed base (base + zeroPage i) = decide (255 < base.toNat % 256 + i.toNat) := by
  have hea : (base + zeroPage i).toNat = (base.toNat + i.toNat) % 65536 := by
    rw [BitVec.toNat_add, toNat_zeroPage]
  have hcarry : (hiByte (base + zeroPage i)).toNat ≠ (hiByte base).toNat ↔ 255 < base.toNat % 256 + i.toNat := by
    rw [toNat_hiByte, toNat_hiByte, hea]
    omega
  rw [pageCrossed, Bool.eq_iff_iff, bne_iff_ne, decide_eq_true_iff, ← hcarry, ne_eq, ne_eq, BitVec.toNat_inj]

theorem indexed_ofNat {base index : Nat} (hb : base < 65536) (hi : index < 256) (s : State) :
    indexed (BitVec.ofNat 16 base) (BitVec.ofNat 8 index) s =
      { ea := BitVec.ofNat 16 ((base + index) % 65536)
        crossed := decide (255 < base % 256 + index)
        st := s } := by
  have hbase : (BitVec.ofNat 16 base).toNat = base := by rw [BitVec.toNat_ofNat, Nat.mod_eq_of_lt hb]
  have hindex : (BitVec.ofNat 8 index).toNat = index := by rw [BitVec.toNat_ofNat, Nat.mod_eq_of_lt hi]
  have hea : BitVec.ofNat 16 base + zeroPage (BitVec.ofNat 8 index) = BitVec.ofNat 16 ((base + index) % 65536) := by
    apply BitVec.eq_of_toNat_eq
    rw [BitVec.toNat_add, toNat_zeroPage, hbase, hindex, BitVec.toNat_ofNat, Nat.mod_mod]
  rw [indexed, pageCrossed_add_zeroPage, hbase, hindex, hea]

/-- The modes without a carried index are those with index 0. -/
theorem indexed_zero (base : Word) (s : State) : indexed base 0 s = { ea := base, crossed := false, st := s } := by
  have h0 : base + zeroPage 0 = base := BitVec.add_zero base
  rw [indexed, h0, pageCrossed, bne_self_eq_false]

/-! ### The resolver -/

/-- R84 to R92: `Resolve` reads the pointer, then adds the index to the base. -/
theorem resolve_eq_indexed (m : AddrForm) (s : State) :
    resolve m s =
      indexed (BitVec.ofNat 16 (baseAddress m s)) (BitVec.ofNat 8 (carriedIndex m s))
        (busAfter s (pointerReads m s)) := by
  cases m with
  | zp z =>
    rw [resolve, zeroPage_eq_ofNat]
    exact (indexed_zero _ s).symm
  | zpx z | zpy z =>
    rw [resolve, zeroPage_add]
    exact (indexed_zero _ s).symm
  | abs w =>
    simp only [baseAddress, BitVec.ofNat_toNat, BitVec.setWidth_eq]
    exact (indexed_zero w s).symm
  | abx w | aby w =>
    simp only [baseAddress, carriedIndex, BitVec.ofNat_toNat, BitVec.setWidth_eq]
    rfl
  | izx z =>
    rw [resolve, readPointer_eq, zeroPage_add_succ, zeroPage_add]
    exact (indexed_zero _ _).symm
  | izy z =>
    simp only [carriedIndex, BitVec.ofNat_toNat, BitVec.setWidth_eq]
    rw [resolve, readPointer_eq, zeroPage_succ, zeroPage_eq_ofNat]
    rfl

/-- R96, R94: the resolver in the numbers of the table. -/
theorem resolve_eq_table (m : AddrForm) (s : State) :
    resolve m s = { ea := address m s, crossed := crosses m s, st := busAfter s (pointerReads m s) } := by
  rw [resolve_eq_indexed, indexed_ofNat (baseAddress_lt m s) (carriedIndex_lt m s)]
  rfl

/-- Settles O11: each mode is base plus index after its pointer reads, and that sum is the table's. -/
theorem resolverFollowsModeTable : Obligations.ResolverFollowsModeTable := by
  intro m s
  rw [resolve_eq_table]
  exact ⟨rfl, rfl, rfl⟩

/-- Settles O12: both modes zero-extend a byte. -/
theorem zeroPageIndexStaysInPageZero : Obligations.ZeroPageIndexStaysInPageZero := by
  intro z s
  have hpage (b : Byte) : (zeroPage b).toNat < 256 := toNat_zeroPage b ▸ b.isLt
  exact ⟨hpage (z + s.x), hpage (z + s.y)⟩

end Sys2Proof.Safety
end

section
/-! SUPPORT. Load and store (spec/41_load_store.md R100 to R106): what reading and storing an operand does, in the accesses
of the statements, and the cycles of spec/30_encoding.md R65, R68 that the penalty classes give these instructions. -/

namespace Sys2Proof.Safety

open Sys2Proof.Machine

variable {i : Instr} {b : Byte} {f : ReadForm} {m : AddrForm} {s : State}

/-! ### The bus's side -/

theorem busAfter_append (s : State) (es fs : List BusAccess) : busAfter s (es ++ fs) = busAfter (busAfter s es) fs :=
  List.foldl_append

@[simp] theorem busAfter_flags (s : State) (es : List BusAccess) : (busAfter s es).flags = s.flags := by
  rw [busAfter_eq]

@[simp] theorem busAfter_windows (s : State) (es : List BusAccess) : (busAfter s es).windows = s.windows := by
  rw [busAfter_eq]

/-- R95: an operand is read after its pointer, once. -/
theorem readOperand_eq_table (f : ReadForm) (s : State) :
    readOperand f s =
      { val := operandValue f s
        crossed := (readOperand f s).crossed
        st := busAfter s (readAccesses f s) } := by
  cases f with
  | imm v => rfl
  | mem m =>
    rw [readOperand, readMem_eq, resolve_eq_table, memRead_eq_accessed]
    simp only [readAccesses, busAfter_append]
    rfl

/-- R100: a store writes its target after the pointer is read, and does not read it. -/
theorem storeOperand_st_eq_busAfter (m : AddrForm) (v : Byte) (s : State) :
    (storeOperand m v s).st = busAfter s (storeAccesses m v s) := by
  rw [storeOperand_st, resolve_eq_table, memWrite_eq_accessed, storeAccesses, busAfter_append]
  rfl

/-- R100: the pointer reads write no RAM, so the one write is the only change of it. -/
theorem storedOnly_busAfter_storeAccesses (m : AddrForm) (v : Byte) (s : State) :
    StoredOnly (address m s) v s (busAfter s (storeAccesses m v s)) := by
  have hwindows := busAfter_windows s (pointerReads m s)
  have hram : (busAfter s (pointerReads m s)).mem = s.mem := busAfter_readsOf_mem s _
  rw [← storeOperand_st_eq_busAfter, storeOperand_st, resolve_eq_table]
  constructor
  · intro ha
    exact State.peek_memWrite_same _ ((State.hasDevice_congr hwindows _).trans ha) v
  · intro a hne ha
    rw [State.peek_memWrite_other _ ((State.hasDevice_congr hwindows a).trans ha) v hne]
    exact State.peek_ram_congr ha hram hwindows

/-! ### Cycles -/

/-- R68: without a crossing and a branch taken nothing is added. -/
theorem stepCycles_false_false (b : Byte) : stepCycles b false false = baseCycles b := by simp [stepCycles]

/-- R68: the class `cross` adds the crossing. -/
theorem stepCycles_of_cross (hb : penaltyOf b = .cross) (crossed : Bool) :
    stepCycles b crossed false = baseCycles b + bitValue crossed := by
  simp [stepCycles, hb, bitValue]

/-- R68: a class without a penalty. -/
theorem stepCycles_of_none (hb : penaltyOf b = .none) (crossed taken : Bool) :
    stepCycles b crossed taken = baseCycles b := by
  simp [stepCycles, hb]

theorem readPenalty_eq_bitValue (f : ReadForm) (s : State) :
    readPenalty f s = bitValue (readOperand f s).crossed := by
  cases f with
  | imm v => rfl
  | mem m =>
    rw [readOperand, readMem_eq, resolve_eq_table]
    rfl

/-- R68: the count of a read, for an opcode byte with the base count of the form and, if the form can cross, of the class
`cross`. -/
theorem stepCycles_read (hbase : readPenalty f s + baseCycles b = readCycles f s)
    (hcross : penaltyOf b = .cross ∨ (readOperand f s).crossed = false) :
    stepCycles b (readOperand f s).crossed false = readCycles f s := by
  rw [← hbase, readPenalty_eq_bitValue, Nat.add_comm]
  rcases hcross with hpenalty | hnever
  · exact stepCycles_of_cross hpenalty _
  · rw [hnever]
    exact stepCycles_false_false b

/-! ### Loads -/

theorem stepCycles_lda (o : AluOperand) (s : State) :
    stepCycles (opcodeOf (.lda o)) (readOperand o.toRead s).crossed false = readCycles o.toRead s := by
  have hbase : readPenalty o.toRead s + baseCycles (opcodeOf (.lda o)) = readCycles o.toRead s := by
    cases o <;> simp only [opcodeOf, AluOperand.pick] <;> rfl
  refine stepCycles_read hbase ?_
  cases o with
  | abx w | aby w | izy z => exact .inl rfl
  | imm v | zp z | zpx z | abs w | izx z => exact .inr rfl

theorem stepCycles_ldx (o : LdxOperand) (s : State) :
    stepCycles (opcodeOf (.ldx o)) (readOperand o.toRead s).crossed false = readCycles o.toRead s := by
  have hbase : readPenalty o.toRead s + baseCycles (opcodeOf (.ldx o)) = readCycles o.toRead s := by
    cases o <;> simp only [opcodeOf, LdxOperand.pick] <;> rfl
  refine stepCycles_read hbase ?_
  cases o with
  | aby w => exact .inl rfl
  | imm v | zp z | zpy z | abs w => exact .inr rfl

theorem stepCycles_ldy (o : LdyOperand) (s : State) :
    stepCycles (opcodeOf (.ldy o)) (readOperand o.toRead s).crossed false = readCycles o.toRead s := by
  have hbase : readPenalty o.toRead s + baseCycles (opcodeOf (.ldy o)) = readCycles o.toRead s := by
    cases o <;> simp only [opcodeOf, LdyOperand.pick] <;> rfl
  refine stepCycles_read hbase ?_
  cases o with
  | abx w => exact .inl rfl
  | imm v | zp z | zpx z | abs w => exact .inr rfl

/-- R100: all that a load does, for a `put` that leaves the flags alone. -/
theorem loadRegister_eq {put : State → Byte → State} (hput : ∀ t v, (put t v).flags = t.flags)
    (hcycles : stepCycles (opcodeOf i) (readOperand f s).crossed false = readCycles f s) :
    loadRegister i f put s =
      .next (((put (busAfter s (readAccesses f s)) (operandValue f s)).setFlags
        (withZN s.flags (operandValue f s))).setCycles (readCycles f s)) := by
  rw [← hcycles, loadRegister, readOperand_eq_table]
  simp only [State.retire_eq, State.setZN, hput, busAfter_flags, setZN_eq_withZN]

/-- Settles O13: a load reads its operand as the table says, and each form has its base count and penalty class. -/
theorem loadsWriteRegisterAndZN : Obligations.LoadsWriteRegisterAndZN :=
  ⟨fun o s => ⟨rfl, loadRegister_eq State.setA_flags (stepCycles_lda o s)⟩,
    fun o s => ⟨rfl, loadRegister_eq State.setX_flags (stepCycles_ldx o s)⟩,
    fun o s => ⟨rfl, loadRegister_eq State.setY_flags (stepCycles_ldy o s)⟩⟩

/-! ### Stores -/

theorem baseCycles_sta (o : StaOperand) : baseCycles (opcodeOf (.sta o)) = storeCycles o.toAddr := by
  cases o <;> simp only [opcodeOf, StaOperand.pick] <;> rfl

theorem baseCycles_stx (o : StxOperand) : baseCycles (opcodeOf (.stx o)) = storeCycles o.toAddr := by
  cases o <;> simp only [opcodeOf, StxOperand.pick] <;> rfl

theorem baseCycles_sty (o : StyOperand) : baseCycles (opcodeOf (.sty o)) = storeCycles o.toAddr := by
  cases o <;> simp only [opcodeOf, StyOperand.pick] <;> rfl

/-- What a store does, for an opcode byte without a penalty and with the base count of the form. -/
theorem storeRegister_spec (v : Byte) (s : State) (hpenalty : penaltyOf (opcodeOf i) = .none)
    (hbase : baseCycles (opcodeOf i) = storeCycles m) :
    ∃ t, storeRegister i m v s = .next t ∧ StoredOnly (address m s) v s t ∧
      t = { busAfter s (storeAccesses m v s) with cycles := storeCycles m } := by
  refine ⟨(busAfter s (storeAccesses m v s)).setCycles (storeCycles m), ?_,
    storedOnly_busAfter_storeAccesses m v s, rfl⟩
  rw [storeRegister, State.retire_eq, storeOperand_st_eq_busAfter, stepCycles_of_none hpenalty, hbase]

/-- Settles O14: in every form the opcode byte is of no penalty class and has the base count of the table. -/
theorem storesWriteOneByte : Obligations.StoresWriteOneByte :=
  ⟨fun o s => ⟨rfl, storeRegister_spec s.a s (by cases o <;> rfl) (baseCycles_sta o)⟩,
    fun o s => ⟨rfl, storeRegister_spec s.x s (by cases o <;> rfl) (baseCycles_stx o)⟩,
    fun o s => ⟨rfl, storeRegister_spec s.y s (by cases o <;> rfl) (baseCycles_sty o)⟩⟩

end Sys2Proof.Safety
end

section
/-! SUPPORT. Arithmetic (spec/42_arithmetic.md R110 to R114): the adder in exact integers, on an operand and on its
one's complement, and the one operation that ADC and SBC share, in the accesses of the statements. -/

namespace Sys2Proof.Safety

open Sys2Proof.Machine

variable {i : Instr} {f : ReadForm} {operand : Byte → Byte} {s : State}

/-! ### The adder -/

theorem bitValue_le_one (b : Bool) : bitValue b ≤ 1 := by cases b <;> decide

/-- R110: nine bits hold the sum exactly. -/
theorem toNat_nineBitSum (a m : Byte) (cin : Bool) :
    (a.setWidth 9 + m.setWidth 9 + (BitVec.ofBool cin).setWidth 9).toNat = a.toNat + m.toNat + bitValue cin := by
  have hcin : (BitVec.ofBool cin).toNat = bitValue cin := by cases cin <;> rfl
  have hle := bitValue_le_one cin
  simp only [BitVec.toNat_add, BitVec.toNat_setWidth, hcin]
  omega

theorem aluAdc_r (a m : Byte) (cin : Bool) :
    (aluAdc a m cin).r = BitVec.ofNat 8 (a.toNat + m.toNat + bitValue cin) := by
  rw [← toNat_nineBitSum, BitVec.ofNat_toNat]
  rfl

/-- The carry is the ninth bit, the top one. -/
theorem aluAdc_cout (a m : Byte) (cin : Bool) :
    (aluAdc a m cin).cout = decide (255 < a.toNat + m.toNat + bitValue cin) := by
  rw [← toNat_nineBitSum]
  exact (BitVec.msb_eq_getLsbD_last _).symm.trans (BitVec.msb_eq_decide _)

/-- The sign rule of R110. -/
theorem aluAdc_vout_iff (a m : Byte) (cin : Bool) :
    (aluAdc a m cin).vout = true ↔ bitOf a 7 = bitOf m 7 ∧ bitOf (aluAdc a m cin).r 7 ≠ bitOf a 7 := by
  have hbits : (aluAdc a m cin).vout =
      ((bitOf a 7 ^^ bitOf (aluAdc a m cin).r 7) && (bitOf m 7 ^^ bitOf (aluAdc a m cin).r 7)) := by
    simp only [← getLsbD_eq_bitOf, ← BitVec.getLsbD_xor, ← BitVec.getLsbD_and]
    rfl
  rw [hbits]
  cases bitOf a 7 <;> cases bitOf m 7 <;> cases bitOf (aluAdc a m cin).r 7 <;> decide

theorem bitOf_seven (v : Byte) : bitOf v 7 = decide (128 ≤ v.toNat) := by
  rw [← getLsbD_eq_bitOf, getLsbD_seven_eq_decide]

/-- The sign rule says that the exact signed sum is out of range. -/
theorem aluAdc_vout (a m : Byte) (cin : Bool) :
    (aluAdc a m cin).vout =
      decide (a.toInt + m.toInt + bitValue cin < -128 ∨ 127 < a.toInt + m.toInt + bitValue cin) := by
  have hle := bitValue_le_one cin
  rw [Bool.eq_iff_iff, aluAdc_vout_iff, decide_eq_true_iff]
  simp only [bitOf_seven, BitVec.toInt_eq_toNat_cond, aluAdc_r, BitVec.toNat_ofNat, decide_eq_decide, ne_eq]
  omega

/-- Settles O9, by the three outputs in exact integers. -/
theorem adderIsExact : Obligations.AdderIsExact := by
  intro a m cin
  refine ⟨?_, aluAdc_cout a m cin, aluAdc_vout a m cin, aluAdc_vout_iff a m cin⟩
  rw [aluAdc_r, BitVec.toNat_ofNat]

/-! ### The adder on a one's complement -/

theorem toNat_complement (m : Byte) : (m ^^^ 0xFF).toNat = 255 - m.toNat := by
  have hnot : m ^^^ 0xFF = ~~~m := BitVec.xor_allOnes
  rw [hnot, BitVec.toNat_not]

theorem toInt_complement (m : Byte) : (m ^^^ 0xFF).toInt = -1 - m.toInt := by
  rw [BitVec.toInt_eq_toNat_cond, BitVec.toInt_eq_toNat_cond, toNat_complement]
  omega

/-- R113: the difference modulo 256. -/
theorem aluAdc_complement_r (a m : Byte) (cin : Bool) :
    (aluAdc a (m ^^^ 0xFF) cin).r = BitVec.ofInt 8 (a.toNat - m.toNat - (1 - bitValue cin)) := by
  apply BitVec.eq_of_toNat_eq
  rw [aluAdc_r, toNat_complement, BitVec.toNat_ofNat, BitVec.toNat_ofInt]
  omega

/-- R113: the carry is an inverted borrow. -/
theorem aluAdc_complement_cout (a m : Byte) (cin : Bool) :
    (aluAdc a (m ^^^ 0xFF) cin).cout = decide ((0 : Int) ≤ a.toNat - m.toNat - (1 - bitValue cin)) := by
  rw [aluAdc_cout, toNat_complement, decide_eq_decide]
  omega

/-- R113: the exact signed difference is out of range. -/
theorem aluAdc_complement_vout (a m : Byte) (cin : Bool) :
    (aluAdc a (m ^^^ 0xFF) cin).vout =
      decide (a.toInt - m.toInt - (1 - bitValue cin) < -128 ∨ 127 < a.toInt - m.toInt - (1 - bitValue cin)) := by
  rw [aluAdc_vout, toInt_complement, decide_eq_decide]
  omega

/-! ### ADC and SBC -/

/-- R68: the count depends on the opcode byte through its base count and its penalty class alone. -/
theorem stepCycles_congr {b b' : Byte} (hbase : baseCycles b = baseCycles b') (hpenalty : penaltyOf b = penaltyOf b')
    (crossed taken : Bool) : stepCycles b crossed taken = stepCycles b' crossed taken := by
  rw [stepCycles, stepCycles, hbase, hpenalty]

/-- R65, R68: form by form ADC has the base count and the penalty class of LDA. -/
theorem stepCycles_adc (o : AluOperand) (s : State) :
    stepCycles (opcodeOf (.adc o)) (readOperand o.toRead s).crossed false = readCycles o.toRead s := by
  have hbase : baseCycles (opcodeOf (.adc o)) = baseCycles (opcodeOf (.lda o)) := by
    cases o <;> simp only [opcodeOf, AluOperand.pick] <;> rfl
  have hpenalty : penaltyOf (opcodeOf (.adc o)) = penaltyOf (opcodeOf (.lda o)) := by cases o <;> rfl
  rw [stepCycles_congr hbase hpenalty, stepCycles_lda]

/-- R65, R68: form by form SBC has the base count and the penalty class of ADC. -/
theorem stepCycles_sbc (o : AluOperand) (s : State) :
    stepCycles (opcodeOf (.sbc o)) (readOperand o.toRead s).crossed false = readCycles o.toRead s := by
  have hbase : baseCycles (opcodeOf (.sbc o)) = baseCycles (opcodeOf (.adc o)) := by
    cases o <;> simp only [opcodeOf, AluOperand.pick] <;> rfl
  have hpenalty : penaltyOf (opcodeOf (.sbc o)) = penaltyOf (opcodeOf (.adc o)) := by cases o <;> rfl
  rw [stepCycles_congr hbase hpenalty, stepCycles_adc]

/-- R111, R113: all that an addition to A does. -/
theorem addToA_eq (hcycles : stepCycles (opcodeOf i) (readOperand f s).crossed false = readCycles f s) :
    addToA i f operand s =
      .next { busAfter s (readAccesses f s) with
        a := (aluAdc s.a (operand (operandValue f s)) s.flags.c).r
        flags := s.flags.ofAdder (aluAdc s.a (operand (operandValue f s)) s.flags.c)
        cycles := readCycles f s } := by
  rw [← hcycles, addToA, readOperand_eq_table]
  rfl

theorem exec_adc (o : AluOperand) (s : State) : exec (.adc o) s = addToA (.adc o) o.toRead (fun m => m) s := rfl

theorem exec_sbc (o : AluOperand) (s : State) :
    exec (.sbc o) s = addToA (.sbc o) o.toRead (fun m => m ^^^ 0xFF) s := rfl

/-- Settles O15: the addition to A with the adder's outputs in exact integers. -/
theorem adcAddsWithCarry : Obligations.AdcAddsWithCarry := by
  intro o s
  refine ⟨rfl, ?_⟩
  rw [exec_adc, addToA_eq (stepCycles_adc o s)]
  simp only [Flags.ofAdder, setZN_eq_withZN, aluAdc_r, aluAdc_cout, aluAdc_vout]

/-- Settles O16: the addition to A of the complement, with the adder's outputs as differences. -/
theorem sbcSubtractsWithBorrow : Obligations.SbcSubtractsWithBorrow := by
  intro o s
  refine ⟨rfl, ?_⟩
  rw [exec_sbc, addToA_eq (stepCycles_sbc o s)]
  simp only [Flags.ofAdder, setZN_eq_withZN, aluAdc_complement_r, aluAdc_complement_cout, aluAdc_complement_vout]

/-- Settles O17: both add the same byte to A, and an immediate operand costs the same in both. -/
theorem sbcIsAdcOfComplement : Obligations.SbcIsAdcOfComplement := by
  intro b s
  rw [exec_sbc, exec_adc, addToA_eq (stepCycles_sbc (.imm b) s), addToA_eq (stepCycles_adc (.imm (b ^^^ 0xFF)) s)]
  rfl

/-! ### The Decimal flag -/

/-- R80, R95: reading an operand neither reads nor writes a flag. -/
theorem readOperand_setFlags (f : ReadForm) (s : State) (g : Flags) :
    readOperand f (s.setFlags g) = { readOperand f s with st := (readOperand f s).st.setFlags g } := by
  cases f with
  | imm v => rfl
  | mem m => cases m <;> rfl

/-- R112: the adder is not given D, and of the flags only C, V, Z and N are written. -/
theorem addToA_decimal (i : Instr) (f : ReadForm) (operand : Byte → Byte) (s : State) (d : Bool) :
    ∃ t, addToA i f operand s = .next t ∧
      addToA i f operand (s.hostSetFlag .d d) = .next (t.hostSetFlag .d d) ∧ t.flags.d = s.flags.d := by
  refine ⟨_, rfl, ?_, rfl⟩
  simp only [State.hostSetFlag, addToA, readOperand_setFlags]
  rfl

/-- Settles O18: ADC and SBC are the one operation with two operand functions. -/
theorem decimalFlagHasNoNumericEffect : Obligations.DecimalFlagHasNoNumericEffect := by
  intro o s d
  simp only [exec_adc, exec_sbc]
  obtain ⟨t, hadc, hadcD, ht⟩ := addToA_decimal (.adc o) o.toRead (fun m => m) s d
  obtain ⟨u, hsbc, hsbcD, hu⟩ := addToA_decimal (.sbc o) o.toRead (fun m => m ^^^ 0xFF) s d
  exact ⟨t, u, hadc, hadcD, hsbc, hsbcD, ht, hu⟩

end Sys2Proof.Safety
end

section
/-! SUPPORT. Logical (spec/43_logical.md R120 to R124): the one operation that AND, ORA and EOR share, and BIT, in the
accesses of the statements. -/

namespace Sys2Proof.Safety

open Sys2Proof.Machine

variable {i : Instr} {f : ReadForm} {op : Byte → Byte → Byte} {s : State}

/-! ### AND, ORA, EOR -/

/-- R65, R68: the count of an instruction with the base count and the penalty class of LDA in the same form. -/
theorem stepCycles_eq_readCycles (o : AluOperand) (s : State)
    (hbase : baseCycles (opcodeOf i) = baseCycles (opcodeOf (.lda o)))
    (hpenalty : penaltyOf (opcodeOf i) = penaltyOf (opcodeOf (.lda o))) :
    stepCycles (opcodeOf i) (readOperand o.toRead s).crossed false = readCycles o.toRead s := by
  rw [stepCycles_congr hbase hpenalty, stepCycles_lda]

theorem stepCycles_and (o : AluOperand) (s : State) :
    stepCycles (opcodeOf (.and o)) (readOperand o.toRead s).crossed false = readCycles o.toRead s :=
  stepCycles_eq_readCycles o s (by cases o <;> simp only [opcodeOf, AluOperand.pick] <;> rfl) (by cases o <;> rfl)

theorem stepCycles_ora (o : AluOperand) (s : State) :
    stepCycles (opcodeOf (.ora o)) (readOperand o.toRead s).crossed false = readCycles o.toRead s :=
  stepCycles_eq_readCycles o s (by cases o <;> simp only [opcodeOf, AluOperand.pick] <;> rfl) (by cases o <;> rfl)

theorem stepCycles_eor (o : AluOperand) (s : State) :
    stepCycles (opcodeOf (.eor o)) (readOperand o.toRead s).crossed false = readCycles o.toRead s :=
  stepCycles_eq_readCycles o s (by cases o <;> simp only [opcodeOf, AluOperand.pick] <;> rfl) (by cases o <;> rfl)

/-- R120: all that a combination into A does. -/
theorem combineA_eq (hcycles : stepCycles (opcodeOf i) (readOperand f s).crossed false = readCycles f s) :
    combineA i f op s =
      .next { busAfter s (readAccesses f s) with
        a := op s.a (operandValue f s)
        flags := withZN s.flags (op s.a (operandValue f s))
        cycles := readCycles f s } := by
  rw [← hcycles, combineA, readOperand_eq_table]
  simp only [State.retire_eq, State.setZN, State.setA_flags, busAfter_flags, setZN_eq_withZN]
  rfl

/-- Settles O19: the three are one operation with three bit functions, each form at the count of LDA. -/
theorem logicalCombineAccumulator : Obligations.LogicalCombineAccumulator :=
  fun o s => ⟨rfl, rfl, rfl, combineA_eq (stepCycles_and o s), combineA_eq (stepCycles_ora o s),
    combineA_eq (stepCycles_eor o s)⟩

/-! ### BIT -/

/-- R124: V and N are bits of the memory byte, and Z alone looks at A. -/
theorem bitTest_eq_bitOf (g : Flags) (a m : Byte) :
    g.bitTest a m = { g with z := decide (a &&& m = 0), v := bitOf m 6, n := bitOf m 7 } := by
  simp only [Flags.bitTest, getLsbD_eq_bitOf]
  rfl

/-- R65, R68: neither form of BIT can cross a page. -/
theorem stepCycles_bit (o : BitOperand) (s : State) :
    stepCycles (opcodeOf (.bit o)) (readOperand (.mem o.toAddr) s).crossed false = readCycles (.mem o.toAddr) s := by
  have hbase : readPenalty (.mem o.toAddr) s + baseCycles (opcodeOf (.bit o)) = readCycles (.mem o.toAddr) s := by
    cases o <;> simp only [opcodeOf, BitOperand.pick] <;> rfl
  have hnever : (readOperand (.mem o.toAddr) s).crossed = false := by cases o <;> rfl
  exact stepCycles_read hbase (.inr hnever)

/-- R124: BIT reads its operand as the other read instructions do, and writes the flags alone. -/
theorem exec_bit (o : BitOperand) (s : State) :
    exec (.bit o) s =
      let q := readOperand (.mem o.toAddr) s
      (q.st.setFlags (s.flags.bitTest s.a q.val)).retire (.bit o) q.crossed false := rfl

/-- Settles O20: one read of the operand as the table says, and the flags of the bit test. -/
theorem bitTestsMemory : Obligations.BitTestsMemory := by
  intro o s
  refine ⟨rfl, ?_⟩
  rw [exec_bit, ← stepCycles_bit, readOperand_eq_table]
  simp only [State.retire_eq, bitTest_eq_bitOf]
  rfl

end Sys2Proof.Safety
end

section
/-! SUPPORT. Shift and rotate (spec/44_shift_rotate.md R130 to R135): the shifter in numbers, and reading, modifying and
writing back an operand in the accesses of the statements. -/

namespace Sys2Proof.Safety

open Sys2Proof.Machine

variable {i : Instr} {f : RmwForm} {r : Byte} {s t u : State}

/-! ### The shifter -/

theorem flagBit_eq_ofNat (k : Nat) (c : Bool) : flagBit k c = BitVec.ofNat 8 (bitValue c <<< k) := by
  cases c with
  | false => simp [flagBit, bitValue]
  | true =>
    apply BitVec.eq_of_toNat_eq
    simp [flagBit, bitValue]

/-- R130: the old carry goes where the shift left a 0, so it is added. -/
theorem aluRol_r (v : Byte) (c : Bool) : (aluRol v c).r = BitVec.ofNat 8 (2 * v.toNat + bitValue c) := by
  have hc : bitValue c < 2 ^ 1 := Nat.lt_succ_of_le (bitValue_le_one c)
  calc v <<< 1 ||| flagBit 0 c
    _ = BitVec.ofNat 8 (v.toNat <<< 1 ||| bitValue c) := by rw [flagBit_eq_ofNat, BitVec.ofNat_or]; rfl
    _ = BitVec.ofNat 8 (2 * v.toNat + bitValue c) := by
      rw [← Nat.shiftLeft_add_eq_or_of_lt hc, Nat.shiftLeft_eq, Nat.mul_comm]

/-- R130: what is shifted right stays below bit 7, where the old carry enters. -/
theorem aluRor_r (v : Byte) (c : Bool) : (aluRor v c).r = BitVec.ofNat 8 (v.toNat / 2 + 128 * bitValue c) := by
  have hv : v.toNat / 2 < 2 ^ 7 := by omega
  have hshift : v >>> 1 = BitVec.ofNat 8 (v.toNat / 2) := by
    apply BitVec.eq_of_toNat_eq
    rw [BitVec.toNat_ushiftRight, Nat.shiftRight_one, BitVec.toNat_ofNat, Nat.mod_eq_of_lt (by omega)]
  calc v >>> 1 ||| flagBit 7 c
    _ = BitVec.ofNat 8 (bitValue c <<< 7 ||| v.toNat / 2) := by
      rw [flagBit_eq_ofNat, hshift, BitVec.ofNat_or, BitVec.or_comm]
    _ = BitVec.ofNat 8 (v.toNat / 2 + 128 * bitValue c) := by
      rw [← Nat.shiftLeft_add_eq_or_of_lt hv, Nat.shiftLeft_eq, Nat.add_comm, Nat.mul_comm]

/-- R130: a left shift is the rotate with a 0 entering. -/
theorem aluAsl_r (v : Byte) (c : Bool) : (aluAsl v c).r = BitVec.ofNat 8 (2 * v.toNat) :=
  BitVec.or_zero.symm.trans (aluRol_r v false)

/-- R130: a right shift is the rotate with a 0 entering. -/
theorem aluLsr_r (v : Byte) (c : Bool) : (aluLsr v c).r = BitVec.ofNat 8 (v.toNat / 2) :=
  BitVec.or_zero.symm.trans (aluRor_r v false)

theorem aluAsl_cout (v : Byte) (c : Bool) : (aluAsl v c).cout = bitOf v 7 := getLsbD_eq_bitOf v 7

theorem aluLsr_cout (v : Byte) (c : Bool) : (aluLsr v c).cout = bitOf v 0 := getLsbD_eq_bitOf v 0

theorem aluRol_cout (v : Byte) (c : Bool) : (aluRol v c).cout = bitOf v 7 := getLsbD_eq_bitOf v 7

theorem aluRor_cout (v : Byte) (c : Bool) : (aluRor v c).cout = bitOf v 0 := getLsbD_eq_bitOf v 0

/-! ### Read, modify, write back -/

/-- R135: the accesses of a modify at memory are those of a read and one write. -/
theorem rmwAccesses_mem (m : AddrForm) (r : Byte) (s : State) :
    rmwAccesses (.mem m) r s = readAccesses (.mem m) s ++ [.write (address m s) r] := by
  rw [rmwAccesses, readAccesses, List.append_assoc]
  rfl

/-- R82: a modify at memory is a read of the operand and one write at the address it was read from. -/
theorem modifyOperand_mem_eq_readOperand (m : AddrForm) (g : Byte → Byte) (s : State) :
    modifyOperand (.mem m) g s =
      { readOperand (.mem m) s with
        st := (readOperand (.mem m) s).st.memWrite (resolve m s).ea (g (readOperand (.mem m) s).val) } := rfl

/-- Accesses do not touch A. -/
theorem setA_busAfter_self (s : State) (es : List BusAccess) : (busAfter s es).setA s.a = busAfter s es := by
  rw [busAfter_eq]
  rfl

/-- R82, R95, R135: on memory a read, then a write at the same address; on the accumulator A alone. -/
theorem modifyOperand_eq_table (f : RmwForm) (g : Byte → Byte) (s : State) :
    modifyOperand f g s =
      { val := rmwValue f s
        crossed := (modifyOperand f g s).crossed
        st := (busAfter s (rmwAccesses f (g (rmwValue f s)) s)).setA (rmwA f (g (rmwValue f s)) s) } := by
  cases f with
  | acc => rfl
  | mem m =>
    rw [modifyOperand_mem_eq_readOperand, readOperand_eq_table, resolve_eq_table, memWrite_eq_accessed, rmwA,
      setA_busAfter_self, rmwAccesses_mem, busAfter_append]
    rfl

/-- A byte of the RAM written from a state with the RAM and the windows of `s`. -/
theorem storedOnly_memWrite (hram : u.mem = s.mem) (hwindows : u.windows = s.windows) (a : Word) (v : Byte) :
    StoredOnly a v s (u.memWrite a v) := by
  have hdevice (b : Word) : u.hasDevice b = s.hasDevice b := State.hasDevice_congr hwindows b
  constructor
  · intro ha
    exact State.peek_memWrite_same u ((hdevice a).trans ha) v
  · intro b hne hb
    rw [State.peek_memWrite_other u ((hdevice b).trans hb) v hne]
    exact State.peek_ram_congr hb hram hwindows

theorem busAfter_readAccesses_mem (f : ReadForm) (s : State) : (busAfter s (readAccesses f s)).mem = s.mem := by
  cases f with
  | imm v => rfl
  | mem m =>
    rw [readAccesses, busAfter_append, busAfter_cons, busAfter_nil, accessed_read_mem]
    exact busAfter_readsOf_mem s _

/-- R135: the reads write no RAM, so the one write is the only change of it; on the accumulator there is none. -/
theorem rmwStored_busAfter_rmwAccesses (f : RmwForm) (r : Byte) (s : State) :
    RmwStored f r s (busAfter s (rmwAccesses f r s)) := by
  cases f with
  | acc => exact fun a _ => rfl
  | mem m =>
    rw [rmwAccesses_mem, busAfter_append, busAfter_cons, busAfter_nil, ← memWrite_eq_accessed]
    exact storedOnly_memWrite (busAfter_readAccesses_mem _ s) (busAfter_windows s _) _ r

/-- Where the result went is told by what the addresses read as. -/
theorem rmwStored_congr (hpeek : ∀ a, t.peek a = u.peek a) (h : RmwStored f r s u) :
    RmwStored f r s t := by
  cases f with
  | acc => exact fun a ha => (hpeek a).trans (h a ha)
  | mem m =>
    obtain ⟨hwritten, hkept⟩ := h
    exact ⟨fun ha => (hpeek _).trans (hwritten ha), fun a hne ha => (hpeek a).trans (hkept a hne ha)⟩

/-! ### ASL, LSR, ROL, ROR -/

/-- What a shift or rotate does, for an opcode byte that costs what the form does. -/
theorem shiftOperand_spec {alu : Byte → Bool → ShiftResult} {cout : Bool}
    (hr : (alu (rmwValue f s) s.flags.c).r = r) (hcout : (alu (rmwValue f s) s.flags.c).cout = cout)
    (hcost : penaltyOf (opcodeOf i) = .none ∧ baseCycles (opcodeOf i) = rmwCycles f) :
    ∃ t, shiftOperand i f alu s = .next t ∧ RmwStored f r s t ∧
      t = { busAfter s (rmwAccesses f r s) with
        a := rmwA f r s
        flags := withZN { s.flags with c := cout } r
        cycles := rmwCycles f } := by
  obtain ⟨hpenalty, hbase⟩ := hcost
  refine ⟨_, ?run, ?stored, rfl⟩
  case run =>
    rw [shiftOperand, State.retire_eq, modifyOperand_eq_table, stepCycles_of_none hpenalty, hbase]
    simp only [hr, hcout, Flags.ofShift, setZN_eq_withZN]
    rfl
  case stored => exact rmwStored_congr (fun _ => rfl) (rmwStored_busAfter_rmwAccesses f r s)

/-- R65, R68: in every form the four are of no penalty class and have the base count of the form. -/
theorem shift_cost {o : ShiftOperand} (hi : i = .asl o ∨ i = .lsr o ∨ i = .rol o ∨ i = .ror o) :
    penaltyOf (opcodeOf i) = .none ∧ baseCycles (opcodeOf i) = rmwCycles o.toRmw := by
  rcases hi with rfl | rfl | rfl | rfl <;> cases o <;> exact ⟨rfl, by simp only [opcodeOf, ShiftOperand.pick]; rfl⟩

/-- Settles O21: both are the one operation, and the shifter gives the numbers of the statement. -/
theorem shiftsMoveOneBit : Obligations.ShiftsMoveOneBit :=
  fun _ _ => ⟨rfl, rfl,
    shiftOperand_spec (aluAsl_r _ _) (aluAsl_cout _ _) (shift_cost (.inl rfl)),
    shiftOperand_spec (aluLsr_r _ _) (aluLsr_cout _ _) (shift_cost (.inr (.inl rfl)))⟩

/-- Settles O22: as the shifts, with the old carry in the shifter's result. -/
theorem rotatesMoveThroughCarry : Obligations.RotatesMoveThroughCarry :=
  fun _ _ => ⟨rfl, rfl,
    shiftOperand_spec (aluRol_r _ _) (aluRol_cout _ _) (shift_cost (.inr (.inr (.inl rfl)))),
    shiftOperand_spec (aluRor_r _ _) (aluRor_cout _ _) (shift_cost (.inr (.inr (.inr rfl))))⟩

end Sys2Proof.Safety
end

section
/-! SUPPORT. The eight branches (spec/45_branch.md R140 to R149): target, page crossing and cycles in numbers, and the one
operation they all are. -/

namespace Sys2Proof.Safety

open Sys2Proof.Machine

variable {i : Instr} {b d : Byte} {cond taken : Bool} {s : State}

/-! ### Target and cycles -/

/-- R140: sign extension keeps the displacement's value, so the target is the signed sum modulo 65536. -/
theorem relTarget_eq_ofInt (next : Word) (d : Byte) : relTarget next d = BitVec.ofInt 16 (next.toNat + d.toInt) := by
  rw [relTarget, signExtend16, BitVec.signExtend, BitVec.ofInt_add, BitVec.ofInt_natCast, BitVec.ofNat_toNat,
    BitVec.setWidth_eq]

/-- R94: the page of an address is its number divided by 256. -/
theorem pageCrossed_eq_decide (before after : Word) :
    pageCrossed before after = decide (after.toNat / 256 ≠ before.toNat / 256) := by
  rw [← toNat_hiByte, ← toNat_hiByte, pageCrossed, Bool.eq_iff_iff, bne_iff_ne, decide_eq_true_iff, ne_eq, ne_eq,
    BitVec.toNat_inj]

/-- R68: the eight opcode bytes are of the class `branch`; none of them is listed in the class `cross` too. -/
theorem penaltyOf_of_branch : ∀ b ∈ branchOpcodes, penaltyOf b = .branch := List.all_iff_forall_prop.mp (by decide)

/-- R149: a crossing counts only when the branch is taken. -/
theorem stepCycles_of_branch (hb : b ∈ branchOpcodes) (crossed taken : Bool) :
    stepCycles b crossed taken = 2 + bitValue taken + bitValue (taken && crossed) := by
  simp [stepCycles, baseCycles_of_branch b hb, penaltyOf_of_branch b hb, bitValue]

/-! ### The operation -/

/-- R140, R149: all that the operation does, for an opcode byte of a branch. -/
theorem branchIf_eq_branched (hb : opcodeOf i ∈ branchOpcodes) (d : Byte) (taken : Bool) (s : State) :
    branchIf i d taken s = .next (branched d taken s) := by
  rw [branchIf, State.retire_eq, stepCycles_of_branch hb, pageCrossed_eq_decide, relTarget_eq_ofInt]
  rfl

/-- An instruction that is the operation of R140 on `cond`, encoded with an opcode byte of a branch. -/
theorem branch_spec (hbytes : encode i = [b, d]) (hb : b ∈ branchOpcodes) (hexec : exec i s = branchIf i d cond s)
    (htaken : taken = cond) : encode i = [b, d] ∧ exec i s = .next (branched d taken s) := by
  have hopcode : opcodeOf i = b := List.head_eq_of_cons_eq hbytes
  rw [hexec, htaken]
  exact ⟨hbytes, branchIf_eq_branched (hopcode ▸ hb) d cond s⟩

/-- Settles O23: each is the one operation on its flag, or on the flag's negation. -/
theorem branchesFollowTheirFlag : Obligations.BranchesFollowTheirFlag :=
  fun _ _ => ⟨
    branch_spec rfl (by decide) rfl Bool.decide_eq_false,
    branch_spec rfl (by decide) rfl Bool.decide_eq_true,
    branch_spec rfl (by decide) rfl Bool.decide_eq_false,
    branch_spec rfl (by decide) rfl Bool.decide_eq_true,
    branch_spec rfl (by decide) rfl Bool.decide_eq_false,
    branch_spec rfl (by decide) rfl Bool.decide_eq_true,
    branch_spec rfl (by decide) rfl Bool.decide_eq_false,
    branch_spec rfl (by decide) rfl Bool.decide_eq_true⟩

end Sys2Proof.Safety
end

section
/-! SUPPORT. The stack as lists of bus accesses (spec/10_state.md R16, R17): pushing bytes and popping a word, in the accesses
and addresses of the statements. -/

namespace Sys2Proof.Safety

open Sys2Proof.Machine

variable {s : State}

/-! ### Registers beside the bus -/

@[simp] theorem busAfter_a (s : State) (es : List BusAccess) : (busAfter s es).a = s.a := by
  rw [busAfter_eq]

@[simp] theorem busAfter_x (s : State) (es : List BusAccess) : (busAfter s es).x = s.x := by
  rw [busAfter_eq]

@[simp] theorem busAfter_y (s : State) (es : List BusAccess) : (busAfter s es).y = s.y := by
  rw [busAfter_eq]

/-- An access does not look at SP. -/
theorem accessed_setSp (s : State) (p : Byte) (e : BusAccess) : accessed (s.setSp p) e = (accessed s e).setSp p := by
  cases e with
  | read a v =>
    rw [accessed_read, accessed_read]
    rfl
  | write a v =>
    rw [← memWrite_eq_accessed, ← memWrite_eq_accessed]
    rfl

theorem busAfter_setSp (s : State) (p : Byte) (es : List BusAccess) :
    busAfter (s.setSp p) es = (busAfter s es).setSp p := by
  induction es generalizing s with
  | nil => rfl
  | cons e es ih => rw [busAfter_cons, busAfter_cons, accessed_setSp, ih]

/-! ### Addresses and bytes -/

/-- R16, with the address in numbers. -/
theorem stackAddr_eq_ofNat (sp : Byte) : stackAddr sp = BitVec.ofNat 16 (0x0100 + sp.toNat) := by
  rw [← toNat_stackAddr, BitVec.ofNat_toNat, BitVec.setWidth_eq]

/-- R17: the increments before the `k`-th pop are modulo 256. -/
theorem popAddr_eq_stackAddr (sp : Byte) (k : Nat) : popAddr sp k = stackAddr (sp + BitVec.ofNat 8 k) := by
  rw [stackAddr_eq_ofNat, popAddr, BitVec.toNat_add, BitVec.toNat_ofNat, Nat.add_mod_mod]

theorem hiByte_eq_ofNat (w : Word) : hiByte w = BitVec.ofNat 8 (w.toNat / 256) := by
  rw [← toNat_hiByte, BitVec.ofNat_toNat, BitVec.setWidth_eq]

theorem wordBytes_eq (w : Word) : wordBytes w = [hiByte w, loByte w] := by
  rw [wordBytes, hiByte_eq_ofNat, loByte_eq_ofNat]

theorem StackIsRam.hasDevice_stackAddr (h : StackIsRam s) (sp : Byte) : s.hasDevice (stackAddr sp) = false := by
  rw [stackAddr_eq_ofNat]
  exact h sp

/-! ### Pushing -/

/-- R17: a push writes one byte at SP and decrements. -/
theorem push_eq_accessed (s : State) (v : Byte) :
    s.push v = (accessed s (.write (BitVec.ofNat 16 (0x0100 + s.sp.toNat)) v)).setSp (s.sp - 1) := by
  rw [State.push_eq, memWrite_eq_accessed, stackAddr_eq_ofNat]

/-- One decrement, then `n` more. -/
theorem sub_one_sub_ofNat (sp : Byte) (n : Nat) : sp - 1 - BitVec.ofNat 8 n = sp - BitVec.ofNat 8 (n + 1) := by
  rw [BitVec.sub_sub, Nat.add_comm, BitVec.ofNat_add]
  rfl

/-- R17: bytes pushed one after another are the writes of the statements, and SP goes down by their number. -/
theorem foldl_push_eq (vs : List Byte) (s : State) :
    vs.foldl State.push s = (busAfter s (pushAccesses s.sp vs)).setSp (s.sp - BitVec.ofNat 8 vs.length) := by
  induction vs generalizing s with
  | nil =>
    rw [List.length_nil, BitVec.sub_zero]
    rfl
  | cons v vs ih =>
    rw [List.foldl_cons, ih, State.push_sp, sub_one_sub_ofNat, push_eq_accessed, busAfter_setSp]
    rfl

/-- R17: a word is pushed as its two bytes, high byte first. -/
theorem pushWord_eq (s : State) (w : Word) :
    s.pushWord w = (busAfter s (pushAccesses s.sp (wordBytes w))).setSp (s.sp - 2) := by
  have hbytes : s.pushWord w = (wordBytes w).foldl State.push s := by
    rw [wordBytes_eq]
    rfl
  rw [hbytes, foldl_push_eq]
  rfl

/-- Bytes written at different addresses of the RAM stand there afterwards, and no other byte of it changes. -/
theorem storedExactly_busAfter_writes {cells : List (Word × Byte)} (hnodup : (cells.map Prod.fst).Nodup) (s : State) :
    StoredExactly cells s (busAfter s (cells.map fun c => .write c.1 c.2)) := by
  induction cells generalizing s with
  | nil => exact ⟨hnodup, by simp, fun _ _ _ => rfl⟩
  | cons c cells ih =>
    obtain ⟨hc, hrest⟩ := List.nodup_cons.mp hnodup
    obtain ⟨-, hwritten, hkept⟩ := ih hrest (s.memWrite c.1 c.2)
    rw [List.map_cons, busAfter_cons, ← memWrite_eq_accessed]
    refine ⟨hnodup, fun d hd hram => ?written, fun a ha hram => ?kept⟩
    case written =>
      rcases List.mem_cons.mp hd with rfl | hd
      · exact (hkept _ hc hram).trans (State.peek_memWrite_same s hram _)
      · exact hwritten d hd hram
    case kept =>
      obtain ⟨hne, ha⟩ := List.ne_and_not_mem_of_not_mem_cons ha
      exact (hkept a ha hram).trans (State.peek_memWrite_other s hram _ hne)

/-- What is stored is told by what the addresses read as. -/
theorem storedExactly_congr {cells : List (Word × Byte)} {t u : State} (hpeek : ∀ a, t.peek a = u.peek a)
    (h : StoredExactly cells s u) : StoredExactly cells s t := by
  obtain ⟨hnodup, hwritten, hkept⟩ := h
  exact ⟨hnodup, fun c hc hram => (hpeek _).trans (hwritten c hc hram),
    fun a ha hram => (hpeek a).trans (hkept a ha hram)⟩

/-- R17: the `k`-th byte pushed, counting from 0, stands `k` below the first one, modulo 256. -/
theorem pushedAt_map_fst (sp : Byte) (vs : List Byte) :
    (pushedAt sp vs).map Prod.fst = (List.range vs.length).map fun k => stackAddr (sp - BitVec.ofNat 8 k) := by
  induction vs generalizing sp with
  | nil => rfl
  | cons v vs ih =>
    rw [pushedAt, List.map_cons, ih, ← stackAddr_eq_ofNat, List.length_cons, List.range_succ_eq_map, List.map_cons,
      List.map_map, BitVec.sub_zero]
    simp only [sub_one_sub_ofNat]
    rfl

/-- R16: the stack page has room for 256 bytes at different addresses. -/
theorem pushedAt_nodup (sp : Byte) {vs : List Byte} (h : vs.length ≤ 256) : ((pushedAt sp vs).map Prod.fst).Nodup := by
  rw [pushedAt_map_fst]
  refine List.Nodup.map_on (fun j hj k hk heq => ?_) List.nodup_range
  have hoffset := stackAddr_inj heq
  rw [List.mem_range] at hj hk
  bv_omega

theorem storedExactly_busAfter_pushAccesses (sp : Byte) {vs : List Byte} (h : vs.length ≤ 256) (s : State) :
    StoredExactly (pushedAt sp vs) s (busAfter s (pushAccesses sp vs)) :=
  storedExactly_busAfter_writes (pushedAt_nodup sp h) s

/-! ### Popping -/

/-- R17: a word is popped low byte first, from the two addresses above SP. -/
theorem popWord_eq_wordAt (s : State) :
    s.popWord =
      (BitVec.ofNat 16 (wordAt s (popAddr s.sp 1) (popAddr s.sp 2)),
        (busAfter s (twoReads s (popAddr s.sp 1) (popAddr s.sp 2))).setSp (s.sp + 2)) := by
  have hsp : s.sp + 2 = s.sp + 1 + 1 := (BitVec.add_assoc s.sp 1 1).symm
  have hhi : popAddr s.sp 2 = stackAddr (s.sp + 1 + 1) := by
    rw [popAddr_eq_stackAddr, ← hsp]
    rfl
  rw [hsp, hhi, popAddr_eq_stackAddr, ← joinBytes_peek_eq_wordAt, busAfter_twoReads]
  rfl

/-- A word read from RAM is the two bytes that stand there. -/
theorem ofNat_wordAt_ram {lo hi : Word} (h : s.hasDevice hi = false) :
    BitVec.ofNat 16 (wordAt s lo hi) = joinBytes (s.peek hi) (s.peek lo) := by
  rw [← joinBytes_peek_eq_wordAt, State.peek_memRead s h]

end Sys2Proof.Safety
end

section
/-! SUPPORT. Jump, call, return (spec/46_jump_call.md R155 to R158): JMP, JSR and RTS in the accesses and addresses of the
statements, and the return to the call's place. -/

namespace Sys2Proof.Safety

open Sys2Proof.Machine

variable {i : Instr} {b : Byte} {n : Nat} {s t : State} {w : Word}

/-- R68: an instruction without a crossing and a branch taken ends with the cycles of its opcode byte. -/
theorem retire_eq_setCycles (hopcode : opcodeOf i = b) (hcycles : baseCycles b = n) (s : State) :
    s.retire i false false = .next (s.setCycles n) := by
  rw [State.retire_eq, stepCycles_false_false, hopcode, hcycles]

/-! ### JMP -/

/-- R90: the address after the pointer's, the carry into its page dropped. -/
theorem wrapInPage_eq_ofNat (p : Word) :
    wrapInPage p = BitVec.ofNat 16 (if p.toNat % 256 = 255 then p.toNat - 255 else p.toNat + 1) := by
  have hone : (1 : Byte).toNat = 1 := rfl
  rw [wrapInPage, joinBytes_eq_ofNat, toNat_hiByte, BitVec.toNat_add, toNat_loByte, hone]
  congr 1
  split <;> omega

/-- R90: the target of an indirect jump in the two reads of the statement. -/
theorem resolveIndirect_eq_wordAt (p : Word) (s : State) :
    resolveIndirect p s = (BitVec.ofNat 16 (wordAt s p (wrapInPage p)), busAfter s (twoReads s p (wrapInPage p))) := by
  rw [resolveIndirect_eq, joinBytes_peek_eq_wordAt, busAfter_twoReads]

/-- Settles O24: the second pointer byte's address is the one of R90. -/
theorem jmpSetsPc : Obligations.JmpSetsPc := by
  refine ⟨fun w s => ⟨rfl, retire_eq_setCycles (b := 0x4C) rfl rfl (s.setPc w)⟩, fun p s => ⟨rfl, ?_⟩⟩
  rw [← wrapInPage_eq_ofNat]
  have hexec : exec (.jmp (.ind p)) s =
      ((resolveIndirect p s).2.setPc (resolveIndirect p s).1).retire (.jmp (.ind p)) false false := rfl
  rw [hexec, resolveIndirect_eq_wordAt, retire_eq_setCycles (b := 0x6C) (n := 5) rfl rfl]
  rfl

/-! ### JSR -/

/-- R157: what JSR does, in the accesses of the statement. -/
theorem exec_jsr (target : Word) (s : State) :
    exec (.jsr target) s = .next { busAfter s (pushAccesses s.sp (wordBytes (s.pc - 1))) with
      pc := target
      sp := s.sp - 2
      cycles := 6 } := by
  have hexec : exec (.jsr target) s = ((s.pushWord (s.pc - 1)).setPc target).retire (.jsr target) false false := rfl
  rw [hexec, pushWord_eq, retire_eq_setCycles (b := 0x20) (n := 6) rfl rfl]
  rfl

/-- Settles O25: the two writes are at different addresses, and nothing else writes RAM. -/
theorem jsrPushesReturnAddressMinusOne : Obligations.JsrPushesReturnAddressMinusOne := fun target s =>
  ⟨rfl, _, exec_jsr target s,
    storedExactly_congr (fun _ => rfl) (storedExactly_busAfter_pushAccesses s.sp (by simp [wordBytes]) s), rfl⟩

/-! ### RTS -/

/-- Settles O26: RTS is a popped word, incremented. -/
theorem rtsPopsAndIncrements : Obligations.RtsPopsAndIncrements := by
  intro s
  have hexec : exec .rts s = (s.popWord.2.setPc (s.popWord.1 + 1)).retire .rts false false := rfl
  rw [hexec, popWord_eq_wordAt, BitVec.ofNat_add, retire_eq_setCycles (b := 0x60) (n := 6) rfl rfl]
  exact ⟨rfl, rfl⟩

/-! ### The round trip -/

/-- R17: popping from RAM gives back the word whose bytes were pushed there, wherever the stack pointer is. -/
theorem ofNat_wordAt_pushed (hram : StackIsRam s) (hwindows : t.windows = s.windows)
    (hstored : StoredExactly (pushedAt s.sp (wordBytes w)) s t) (hsp : t.sp = s.sp - 2) :
    BitVec.ofNat 16 (wordAt t (popAddr t.sp 1) (popAddr t.sp 2)) = w := by
  have hlo : popAddr t.sp 1 = stackAddr (s.sp - 1) := by
    rw [popAddr_eq_stackAddr, hsp]
    congr 1
    bv_omega
  have hhi : popAddr t.sp 2 = stackAddr s.sp := by
    rw [popAddr_eq_stackAddr, hsp]
    exact congrArg stackAddr (BitVec.sub_add_cancel s.sp 2)
  obtain ⟨-, hwritten, -⟩ := hstored
  have hcells : pushedAt s.sp (wordBytes w) = [(stackAddr s.sp, hiByte w), (stackAddr (s.sp - 1), loByte w)] := by
    rw [wordBytes_eq, pushedAt, pushedAt, pushedAt, stackAddr_eq_ofNat, stackAddr_eq_ofNat]
  simp only [hcells, List.forall_mem_cons] at hwritten
  obtain ⟨hpeekHi, hpeekLo, -⟩ := hwritten
  have hstack := hram.hasDevice_stackAddr
  have hdevice : t.hasDevice (stackAddr s.sp) = false := (State.hasDevice_congr hwindows _).trans (hstack _)
  rw [hlo, hhi, ofNat_wordAt_ram hdevice, hpeekHi (hstack _), hpeekLo (hstack _), joinBytes_hi_lo]

/-- Settles O27: RTS pops the word that JSR pushed, one below the return address; accesses change no register. -/
theorem rtsUndoesJsr : Obligations.RtsUndoesJsr := by
  intro target s hram
  obtain ⟨-, t, hjsr, hstored, ht⟩ := jsrPushesReturnAddressMinusOne target s
  obtain ⟨-, hrts⟩ := rtsPopsAndIncrements t
  refine ⟨t, _, hjsr, hrts, ?pc, ?sp, ?flags, ?a, ?x, ?y⟩
  case pc =>
    have hpopped := ofNat_wordAt_pushed hram (by simp [ht]) hstored (by rw [ht])
    rw [BitVec.ofNat_add, hpopped]
    exact BitVec.sub_add_cancel s.pc 1
  case sp =>
    rw [ht]
    exact BitVec.sub_add_cancel s.sp 2
  case flags | a | x | y => simp [ht]

end Sys2Proof.Safety
end

section
/-! SUPPORT. The instructions of one byte that touch no memory (spec/47_stack.md R169, R170; spec/48_flag_system.md R180 to
R190; spec/49_supplied_instructions.md R207 to R214) and the illegal opcodes (R197, R198). -/

namespace Sys2Proof.Safety

open Sys2Proof.Machine

variable {i : Instr} {b : Byte} {s t u : State}

/-- An instruction encoded as its opcode byte alone that retires from `t`. -/
theorem implied_spec (hbytes : encode i = [b]) (hexec : exec i s = t.retire i false false)
    (hnext : t.setCycles (baseCycles b) = u) : encode i = [b] ∧ exec i s = .next u := by
  have hopcode : opcodeOf i = b := List.head_eq_of_cons_eq hbytes
  rw [hexec, ← hnext]
  exact ⟨hbytes, retire_eq_setCycles hopcode rfl t⟩

/-- Settles O31: each retires, 2 cycles in its cell of the base counts, from the state with its one flag written. -/
theorem flagInstructionsSetOneFlag : Obligations.FlagInstructionsSetOneFlag := fun _ =>
  ⟨implied_spec rfl rfl rfl, implied_spec rfl rfl rfl, implied_spec rfl rfl rfl, implied_spec rfl rfl rfl,
    implied_spec rfl rfl rfl, implied_spec rfl rfl rfl, implied_spec rfl rfl rfl, implied_spec rfl rfl rfl⟩

/-- Settles O38: each retires from the state with the register copied and Z, N of it. -/
theorem registerTransfersSetZN : Obligations.RegisterTransfersSetZN := by
  intro s
  simp only [← setZN_eq_withZN]
  exact ⟨implied_spec rfl rfl rfl, implied_spec rfl rfl rfl, implied_spec rfl rfl rfl, implied_spec rfl rfl rfl⟩

/-- Settles O30: TSX is a transfer with Z and N, TXS writes SP alone. -/
theorem stackPointerTransfers : Obligations.StackPointerTransfers := by
  intro s
  rw [← setZN_eq_withZN]
  obtain ⟨htsx, htsxNext⟩ := implied_spec (i := .tsx) (s := s) rfl rfl rfl
  obtain ⟨htxs, htxsNext⟩ := implied_spec (i := .txs) (s := s) rfl rfl rfl
  exact ⟨htsx, htxs, htsxNext, htxsNext⟩

/-- A decrement is the addition of 255. -/
theorem toNat_sub_one (v : Byte) : (v - 1).toNat = (v.toNat + 255) % 256 := by
  rw [BitVec.toNat_sub, Nat.add_comm]
  rfl

/-- Settles O37: the register of the next state is the sum or the difference modulo 256. -/
theorem indexRegistersStep : Obligations.IndexRegistersStep := by
  intro s
  simp only [← setZN_eq_withZN]
  exact ⟨⟨rfl, _, BitVec.toNat_add s.x 1, (implied_spec (i := .inx) rfl rfl rfl).2⟩,
    ⟨rfl, _, BitVec.toNat_add s.y 1, (implied_spec (i := .iny) rfl rfl rfl).2⟩,
    ⟨rfl, _, toNat_sub_one s.x, (implied_spec (i := .dex) rfl rfl rfl).2⟩,
    ⟨rfl, _, toNat_sub_one s.y, (implied_spec (i := .dey) rfl rfl rfl).2⟩⟩

/-- Settles O33: ILLEGAL_POLICY is `halt`. -/
theorem illegalOpcodeHalts : Obligations.IllegalOpcodeHalts := fun _ _ => rfl

/-- Settles O34: the OPEN length is one of three, and PC is the sum modulo 65536. -/
theorem illegalOpcodeAsNop : Obligations.IllegalOpcodeAsNop := by
  intro b s
  refine ⟨_, Nat.le_of_lt_succ (Config.illegalSkip b).isLt, rfl, ?_⟩
  rw [BitVec.ofNat_add, BitVec.ofNat_toNat, BitVec.setWidth_eq]
  rfl

end Sys2Proof.Safety
end

section
/-! SUPPORT. The stack instructions that move one byte (spec/47_stack.md R165 to R168), in the accesses and addresses of the
statements. -/

namespace Sys2Proof.Safety

open Sys2Proof.Machine

variable {i : Instr} {b v : Byte} {n : Nat} {s : State}

/-! ### PHA and PHP -/

/-- R17: one byte pushed, in the accesses of the statements. -/
theorem push_eq_busAfter (s : State) (v : Byte) :
    s.push v = (busAfter s (pushAccesses s.sp [v])).setSp (s.sp - 1) := push_eq_accessed s v

/-- R165, R167: what an instruction that pushes `v` and retires does. -/
theorem push_spec (hopcode : opcodeOf i = b) (hcycles : baseCycles b = n)
    (hexec : exec i s = (s.push v).retire i false false) :
    ∃ t, exec i s = .next t ∧ StoredExactly (pushedAt s.sp [v]) s t ∧
      t = { busAfter s (pushAccesses s.sp [v]) with sp := s.sp - 1, cycles := n } := by
  refine ⟨_, ?run, ?stored, rfl⟩
  case run =>
    rw [hexec, retire_eq_setCycles hopcode hcycles, push_eq_busAfter]
    rfl
  case stored => exact storedExactly_congr (fun _ => rfl) (storedExactly_busAfter_pushAccesses s.sp (by simp) s)

/-- Settles O28: PHA pushes A, PHP the status byte with bit 4 set. -/
theorem pushInstructionsStoreOneByte : Obligations.PushInstructionsStoreOneByte := by
  intro s
  rw [← statusByte_eq_statusValue]
  exact ⟨rfl, rfl, push_spec (b := 0x48) rfl rfl rfl, push_spec (b := 0x08) rfl rfl rfl⟩

/-! ### PLA and PLP -/

/-- R17: a byte is popped from the address above SP. -/
theorem pop_eq_busAfter (s : State) :
    s.pop = (s.peek (popAddr s.sp 1), (busAfter s (readsOf s [popAddr s.sp 1])).setSp (s.sp + 1)) := by
  have haddr : popAddr s.sp 1 = stackAddr (s.sp + 1) := popAddr_eq_stackAddr s.sp 1
  rw [haddr, readsOf, readsOf, busAfter_cons, busAfter_nil, accessed_read]
  rfl

/-- Settles O29: PLA puts the popped byte in A, PLP in the flags. -/
theorem pullInstructionsReadOneByte : Obligations.PullInstructionsReadOneByte := by
  intro s
  have hpla : exec .pla s = ((s.pop.2.setA s.pop.1).setZN s.pop.1).retire .pla false false := rfl
  have hplp : exec .plp s = (s.pop.2.setFlags (s.pop.2.flags.fromByte s.pop.1)).retire .plp false false := rfl
  refine ⟨rfl, rfl, ?pla, ?plp⟩
  case pla =>
    rw [hpla, retire_eq_setCycles (b := 0x68) (n := 4) rfl rfl, pop_eq_busAfter, State.setZN, setZN_eq_withZN]
    simp only [State.setA_flags, State.setSp_flags, busAfter_flags]
    rfl
  case plp =>
    rw [hplp, retire_eq_setCycles (b := 0x28) (n := 4) rfl rfl, State.pop_flags, fromByte_eq_pulledFlags, pop_eq_busAfter]
    rfl

end Sys2Proof.Safety
end

section
/-! SUPPORT. The supplied compares and memory steps (spec/49_supplied_instructions.md R201 to R206): the comparator in
numbers, and the one operation each group shares in the accesses of the statements. -/

namespace Sys2Proof.Safety

open Sys2Proof.Machine

variable {i : Instr} {f : ReadForm} {m : AddrForm} {r : Byte} {s : State}

/-! ### The comparator -/

theorem bitValue_true : bitValue true = 1 := rfl

/-- R201: with carry-in 1 the adder on the one's complement gives the difference. -/
theorem aluAdc_complement_true_r (r m : Byte) : (aluAdc r (m ^^^ 0xFF) true).r = r - m := by
  apply BitVec.eq_of_toNat_eq
  rw [aluAdc_r, toNat_complement, bitValue_true, BitVec.toNat_ofNat, BitVec.toNat_sub]
  omega

/-- R201: the carry is the unsigned order. -/
theorem aluAdc_complement_true_cout (r m : Byte) :
    (aluAdc r (m ^^^ 0xFF) true).cout = decide (m.toNat ≤ r.toNat) := by
  rw [aluAdc_complement_cout, bitValue_true, decide_eq_decide]
  omega

theorem sub_beq_zero (r m : Byte) : (r - m == 0x00) = decide (r = m) := by
  rw [Bool.eq_iff_iff, beq_iff_eq, decide_eq_true_iff]
  exact sub_eq_zero

/-- R201. -/
theorem compare_eq (g : Flags) (r m : Byte) :
    g.compare r m = { g with c := decide (m.toNat ≤ r.toNat), z := decide (r = m), n := bitOf (r - m) 7 } := by
  simp only [Flags.compare, Flags.setZN, aluAdc_complement_true_r, aluAdc_complement_true_cout, sub_beq_zero,
    getLsbD_eq_bitOf]

/-- Settles O10: the three outputs in numbers. -/
theorem comparatorResults : Obligations.ComparatorResults := compare_eq

/-! ### CMP, CPX, CPY -/

theorem stepCycles_cmp (o : AluOperand) (s : State) :
    stepCycles (opcodeOf (.cmp o)) (readOperand o.toRead s).crossed false = readCycles o.toRead s :=
  stepCycles_eq_readCycles o s (by cases o <;> simp only [opcodeOf, AluOperand.pick] <;> rfl) (by cases o <;> rfl)

/-- R65, R68: CPX and CPY have the base count of the form, and none of their forms can cross a page. -/
theorem stepCycles_cpx_cpy {o : CmpOperand} (hi : i = .cpx o ∨ i = .cpy o) (s : State) :
    stepCycles (opcodeOf i) (readOperand o.toRead s).crossed false = readCycles o.toRead s := by
  have hbase : readPenalty o.toRead s + baseCycles (opcodeOf i) = readCycles o.toRead s := by
    rcases hi with rfl | rfl <;> cases o <;> simp only [opcodeOf, CmpOperand.pick] <;> rfl
  have hnever : (readOperand o.toRead s).crossed = false := by cases o <;> rfl
  exact stepCycles_read hbase (.inr hnever)

/-- R201: all that a compare does. -/
theorem compareWith_eq (hcycles : stepCycles (opcodeOf i) (readOperand f s).crossed false = readCycles f s) :
    compareWith i r f s =
      .next { busAfter s (readAccesses f s) with
        flags := { s.flags with
          c := decide ((operandValue f s).toNat ≤ r.toNat)
          z := decide (r = operandValue f s)
          n := bitOf (r - operandValue f s) 7 }
        cycles := readCycles f s } := by
  rw [← hcycles, ← compare_eq, compareWith, readOperand_eq_table]
  rfl

/-- Settles O35: the three are one operation on three registers. -/
theorem comparesSetCarryZeroNegative : Obligations.ComparesSetCarryZeroNegative :=
  ⟨fun o s => ⟨rfl, compareWith_eq (stepCycles_cmp o s)⟩,
    fun _ s => ⟨rfl, rfl, compareWith_eq (stepCycles_cpx_cpy (.inl rfl) s),
      compareWith_eq (stepCycles_cpx_cpy (.inr rfl) s)⟩⟩

/-! ### INC and DEC -/

/-- What a step of a memory byte does, for an opcode byte that costs what the form does. -/
theorem stepMemory_spec {g : Byte → Byte} (hr : g (rmwValue (.mem m) s) = r)
    (hcost : penaltyOf (opcodeOf i) = .none ∧ baseCycles (opcodeOf i) = rmwCycles (.mem m)) :
    ∃ t, stepMemory i m g s = .next t ∧ StoredOnly (address m s) r s t ∧
      t = { busAfter s (rmwAccesses (.mem m) r s) with
        flags := withZN s.flags r
        cycles := rmwCycles (.mem m) } := by
  obtain ⟨hpenalty, hbase⟩ := hcost
  refine ⟨_, ?run, ?stored, rfl⟩
  case run =>
    rw [stepMemory, State.retire_eq, modifyOperand_eq_table, stepCycles_of_none hpenalty, hbase]
    simp only [hr, rmwA, setA_busAfter_self, State.setZN, busAfter_flags, setZN_eq_withZN]
    rfl
  case stored => exact rmwStored_congr (fun _ => rfl) (rmwStored_busAfter_rmwAccesses (.mem m) r s)

/-- R65, R68: in every form INC and DEC are of no penalty class and have the base count of the form. -/
theorem inc_dec_cost {o : IncOperand} (hi : i = .inc o ∨ i = .dec o) :
    penaltyOf (opcodeOf i) = .none ∧ baseCycles (opcodeOf i) = rmwCycles (.mem o.toAddr) := by
  rcases hi with rfl | rfl <;> cases o <;> exact ⟨rfl, by simp only [opcodeOf, IncOperand.pick]; rfl⟩

theorem add_one_eq_ofNat (v : Byte) : v + 1 = BitVec.ofNat 8 (v.toNat + 1) := by
  rw [BitVec.ofNat_add, BitVec.ofNat_toNat, BitVec.setWidth_eq]
  rfl

theorem sub_one_eq_ofNat (v : Byte) : v - 1 = BitVec.ofNat 8 (v.toNat + 255) := by
  rw [BitVec.ofNat_add, BitVec.ofNat_toNat, BitVec.setWidth_eq]
  exact BitVec.sub_eq_add_neg v 1

/-- Settles O36: both are the one operation, with the byte's successor and predecessor modulo 256. -/
theorem incDecStepMemoryByte : Obligations.IncDecStepMemoryByte :=
  fun _ _ => ⟨rfl, rfl, stepMemory_spec (add_one_eq_ofNat _) (inc_dec_cost (.inl rfl)),
    stepMemory_spec (sub_one_eq_ofNat _) (inc_dec_cost (.inr rfl))⟩

end Sys2Proof.Safety
end

section
/-! SUPPORT. Taking an interrupt and returning from one (spec/60_exceptions.md R238 to R242, spec/48_flag_system.md R191,
spec/49_supplied_instructions.md R215): the service sequence and RTI in the accesses and addresses of the statements, and
the return to the interrupted place. -/

namespace Sys2Proof.Safety

open Sys2Proof.Machine

variable {k : IntKind} {ret vec w : Word} {b4 : Bool} {n : Nat} {s t u : State}

/-! ### The service sequence -/

/-- R43: PC from a vector is the two reads of the statements and the word they give. -/
theorem loadPcFrom_eq_wordAt (s : State) (vec : Word) :
    s.loadPcFrom vec =
      (busAfter s (twoReads s vec (vec + 1))).setPc (BitVec.ofNat 16 (wordAt s vec (vec + 1))) := by
  rw [State.loadPcFrom_eq, joinBytes_peek_eq_wordAt, busAfter_twoReads]

/-! Registers beside a push and the load of a vector. -/

theorem push_setPc (s : State) (w : Word) (v : Byte) : (s.setPc w).push v = (s.push v).setPc w := rfl

theorem loadPcFrom_setPc (s : State) (w vec : Word) : (s.setPc w).loadPcFrom vec = s.loadPcFrom vec := rfl

theorem loadPcFrom_setSp (s : State) (p : Byte) (vec : Word) :
    (s.setSp p).loadPcFrom vec = (s.loadPcFrom vec).setSp p := rfl

theorem loadPcFrom_setFlags (s : State) (f : Flags) (vec : Word) :
    (s.setFlags f).loadPcFrom vec = (s.loadPcFrom vec).setFlags f := rfl

/-- The three bytes a service sequence pushes, in order (R238, R240). -/
def serviceBytes (ret : Word) (b4 : Bool) (f : Flags) : List Byte :=
  wordBytes ret ++ [BitVec.ofNat 8 (statusValue f b4)]

/-- R238: the sequence with the return address `w` is three pushes, the load of the vector, and I set. -/
theorem service_eq_foldl (w : Word) (k : IntKind) (s : State) :
    (s.setPc w).service k =
      (((serviceBytes w k.pushSource s.flags).foldl State.push s).loadPcFrom k.vector).setFlags
        { s.flags with i := true } := by
  have hbytes : serviceBytes w k.pushSource s.flags = [hiByte w, loByte w, s.flags.statusByte k.pushSource] := by
    rw [serviceBytes, wordBytes_eq, statusByte_eq_statusValue]
    rfl
  simp only [hbytes, List.foldl_cons, List.foldl_nil, State.service, State.pushWord, push_setPc, loadPcFrom_setFlags,
    loadPcFrom_setPc, State.setPc_pc, State.setPc_flags, State.push_flags]

theorem service_eq_busAfter (w : Word) (k : IntKind) (s : State) :
    (s.setPc w).service k =
      (((busAfter s (pushAccesses s.sp (serviceBytes w k.pushSource s.flags))).loadPcFrom k.vector).setSp
        (s.sp - 3)).setFlags { s.flags with i := true } := by
  rw [service_eq_foldl, foldl_push_eq, loadPcFrom_setSp]
  rfl

/-- What is stored in the RAM is told by the RAM. -/
theorem storedExactly_of_mem {cells : List (Word × Byte)} (h : StoredExactly cells s u)
    (hsame : u.windows = s.windows) (hmem : t.mem = u.mem) (hwindows : t.windows = u.windows) :
    StoredExactly cells s t := by
  obtain ⟨hnodup, hwritten, hkept⟩ := h
  have hpeek (a : Word) (ha : s.hasDevice a = false) : t.peek a = u.peek a :=
    State.peek_ram_congr ((State.hasDevice_congr hsame a).trans ha) hmem hwindows
  exact ⟨hnodup, fun c hc hram => (hpeek _ hram).trans (hwritten c hc hram),
    fun a ha hram => (hpeek a hram).trans (hkept a ha hram)⟩

/-- R238: the sequence with the return address `w`, as the statements say it. -/
theorem serviced_service (w : Word) (k : IntKind) (s : State) :
    Serviced w k.pushSource k.vector s ((s.setPc w).service k) := by
  have hlength : (serviceBytes w k.pushSource s.flags).length ≤ 256 := by simp [serviceBytes, wordBytes]
  rw [service_eq_busAfter]
  rw [serviceBytes] at hlength ⊢
  constructor
  · simp only [loadPcFrom_eq_wordAt, State.setPc, State.setSp, State.setFlags]
  · exact storedExactly_of_mem (storedExactly_busAfter_pushAccesses s.sp hlength s) (busAfter_windows s _)
      (by simp [State.loadPcFrom_eq]) (by simp [State.loadPcFrom_eq])

/-- The cycle count is apart. -/
theorem Serviced.setCycles (h : Serviced ret b4 vec s t) (n : Nat) : Serviced ret b4 vec s (t.setCycles n) := by
  obtain ⟨hnext, hstored⟩ := h
  exact ⟨congrArg (fun u => u.setCycles n) hnext, storedExactly_congr (fun _ => rfl) hstored⟩

/-- Settles O40: each kind has its push source and vector. -/
theorem serviceSequencePushesAndVectors : Obligations.ServiceSequencePushesAndVectors := fun s =>
  ⟨serviced_service s.pc .nmi s, serviced_service s.pc .irq s, serviced_service s.pc .brk s⟩

/-- Settles O32: BRK is the sequence of its kind from PC past the padding byte, and retires. -/
theorem brkTakesSoftwareInterrupt : Obligations.BrkTakesSoftwareInterrupt := by
  intro s
  have hexec : exec .brk s = ((s.setPc (s.pc + 1)).service .brk).retire .brk false false := rfl
  rw [retire_eq_setCycles (b := 0x00) (n := 7) rfl rfl] at hexec
  exact ⟨rfl, _, hexec, rfl, (serviced_service (s.pc + 1) .brk s).setCycles 7⟩

/-! ### RTI -/

/-- What reading gives depends on the bus's side alone. -/
theorem SameBus.readsOf_eq (h : SameBus s t) (addrs : List Word) : readsOf s addrs = readsOf t addrs := by
  induction addrs generalizing s t with
  | nil => rfl
  | cons a addrs ih => rw [readsOf, readsOf, h.peek_eq a, ih (h.accessed _)]

theorem SameBus.wordAt_eq (h : SameBus s t) (lo hi : Word) : wordAt s lo hi = wordAt t lo hi := by
  rw [wordAt, wordAt, h.peek_eq lo, (h.accessed _).peek_eq hi]

/-- One increment, then `n` more. -/
theorem popAddr_add_one (sp : Byte) (n : Nat) : popAddr (sp + 1) n = popAddr sp (n + 1) := by
  rw [popAddr_eq_stackAddr, popAddr_eq_stackAddr, Nat.add_comm, BitVec.ofNat_add, BitVec.add_assoc]
  rfl

/-- R17: a word popped after a byte. -/
theorem popWord_pop (s : State) :
    let u := accessed s (.read (popAddr s.sp 1) (s.peek (popAddr s.sp 1)))
    s.pop.2.popWord =
      (BitVec.ofNat 16 (wordAt u (popAddr s.sp 2) (popAddr s.sp 3)),
        (busAfter u (twoReads u (popAddr s.sp 2) (popAddr s.sp 3))).setSp (s.sp + 3)) := by
  intro u
  have hpop : s.pop.2 = u.setSp (s.sp + 1) := by rw [pop_eq_busAfter]; rfl
  have hbus : SameBus (u.setSp (s.sp + 1)) u := ⟨rfl, rfl, rfl, rfl, rfl⟩
  have hsp : s.sp + 1 + 2 = s.sp + 3 := BitVec.add_assoc s.sp 1 2
  rw [popWord_eq_wordAt, hpop, State.setSp_sp, popAddr_add_one, popAddr_add_one, hsp, hbus.wordAt_eq, twoReads,
    hbus.readsOf_eq, busAfter_setSp]
  rfl

/-- The flags play no part in popping a word. -/
theorem popWord_setFlags (s : State) (f : Flags) : (s.setFlags f).popWord = (s.popWord.1, s.popWord.2.setFlags f) := by
  simp only [State.popWord_eq, State.pop_setFlags]

/-- R242: the status, then a word; between them only the flags are written. -/
theorem returnFromInterrupt_eq_popWord (s : State) :
    s.returnFromInterrupt =
      (s.pop.2.popWord.2.setFlags (s.flags.fromByte s.pop.1)).setPc s.pop.2.popWord.1 := by
  rw [State.returnFromInterrupt, popWord_setFlags, State.pop_flags]

/-- Settles O39: RTI pops a byte, then a word. -/
theorem rtiRestoresStatusAndPc : Obligations.RtiRestoresStatusAndPc := by
  intro s
  have hexec : exec .rti s = s.returnFromInterrupt.retire .rti false false := rfl
  rw [hexec, retire_eq_setCycles (b := 0x40) (n := 6) rfl rfl, returnFromInterrupt_eq_popWord, popWord_pop,
    fromByte_eq_pulledFlags, pop_eq_busAfter]
  refine ⟨rfl, ?_⟩
  rw [readsOf, busAfter_cons]
  simp only [State.setPc, State.setSp, State.setFlags, State.setCycles]
  rfl

/-! ### The round trip -/

/-- R17: SP is below the pushed bytes, and the `k`-th pop reads above it. -/
theorem popAddr_sub_three (sp : Byte) :
    popAddr (sp - 3) 1 = stackAddr (sp - 1 - 1) ∧ popAddr (sp - 3) 2 = stackAddr (sp - 1) ∧
      popAddr (sp - 3) 3 = stackAddr sp := by
  simp only [popAddr_eq_stackAddr]
  refine ⟨congrArg stackAddr ?_, congrArg stackAddr ?_, congrArg stackAddr ?_⟩ <;> bv_omega

/-- The bytes a service sequence has stored, if the stack page is RAM. -/
theorem peek_of_serviced (hram : StackIsRam s) (h : Serviced ret b4 vec s t) :
    t.peek (stackAddr s.sp) = hiByte ret ∧ t.peek (stackAddr (s.sp - 1)) = loByte ret ∧
      t.peek (stackAddr (s.sp - 1 - 1)) = s.flags.statusByte b4 := by
  obtain ⟨-, -, hwritten, -⟩ := h
  have hstack := hram.hasDevice_stackAddr
  simp only [wordBytes_eq, ← statusByte_eq_statusValue, List.cons_append, List.nil_append, pushedAt,
    ← stackAddr_eq_ofNat, List.forall_mem_cons] at hwritten
  obtain ⟨hhi, hlo, hstatus, -⟩ := hwritten
  exact ⟨hhi (hstack _), hlo (hstack _), hstatus (hstack _)⟩

/-- R215, R242: RTI with a return address and the status of `s` on the stack, if the stack page is RAM. -/
theorem exec_rti_of_pushed (hram : StackIsRam t) (hsp : t.sp = s.sp - 3) (hb : t.flags.b = s.flags.b)
    (hhi : t.peek (stackAddr s.sp) = hiByte ret) (hlo : t.peek (stackAddr (s.sp - 1)) = loByte ret)
    (hstatus : t.peek (stackAddr (s.sp - 1 - 1)) = s.flags.statusByte b4) :
    ∃ u, exec .rti t = .next u ∧ u.pc = ret ∧ u.sp = s.sp ∧ u.flags = s.flags ∧ u.a = t.a ∧ u.x = t.x ∧ u.y = t.y := by
  obtain ⟨-, hrti⟩ := rtiRestoresStatusAndPc t
  obtain ⟨haddr1, haddr2, haddr3⟩ := popAddr_sub_three s.sp
  rw [hsp, haddr1, haddr2, haddr3, hstatus] at hrti
  refine ⟨_, hrti, ?pc, BitVec.sub_add_cancel s.sp 3, ?flags, busAfter_a t _, busAfter_x t _, busAfter_y t _⟩
  case pc =>
    have hstack := hram.hasDevice_stackAddr
    have hkept (p : Byte) (e : Word) (v : Byte) :
        (accessed t (.read e v)).peek (stackAddr p) = t.peek (stackAddr p) :=
      State.peek_ram_congr (hstack p) (accessed_read_mem t e v) (accessed_windows t _)
    refine (ofNat_wordAt_ram ?_).trans ?_
    · exact (State.hasDevice_congr (accessed_windows t _) _).trans (hstack s.sp)
    · rw [hkept, hkept, hhi, hlo, joinBytes_hi_lo]
  case flags =>
    have hpulled := pushedStatusPullsBack s.flags t.flags b4
    rw [fromByte_eq_pulledFlags, hb] at hpulled
    exact hpulled

/-- Settles O41: the sequence pushed the return address and the status; it writes of the registers only PC and SP, and of
the flags only I. -/
theorem rtiUndoesServiceSequence : Obligations.RtiUndoesServiceSequence := by
  intro k s hram
  have hserviced : Serviced s.pc k.pushSource k.vector s (s.service k) := serviced_service s.pc k s
  obtain ⟨hhi, hlo, hstatus⟩ := peek_of_serviced hram hserviced
  have hframe := State.service_eq s k
  have hsp : (s.service k).sp = s.sp - 3 := by rw [hframe]; bv_omega
  have hb : (s.service k).flags.b = s.flags.b := by rw [hframe]
  have hram' : StackIsRam (s.service k) := fun p => (State.hasDevice_congr (by rw [hframe]) _).trans (hram p)
  obtain ⟨u, hrti, hpc, husp, hflags, ha, hx, hy⟩ := exec_rti_of_pushed hram' hsp hb hhi hlo hstatus
  exact ⟨u, hrti, hpc, husp, hflags, ha.trans (by rw [hframe]), hx.trans (by rw [hframe]), hy.trans (by rw [hframe])⟩

end Sys2Proof.Safety
end

section
/-! SUPPORT. What a step is in each case of the boundary, in the terms of the statements (spec/60_exceptions.md R236 to R249,
spec/70_reset_and_hazards.md R270), and the fetch as the reads of its bytes (spec/30_encoding.md R67, spec/20_memory.md R47). -/

namespace Sys2Proof.Safety

open Sys2Proof.Machine

variable {i : Instr} {rest : List Byte} {n : Nat} {s : State}

/-! ### Reset, a halted core, interrupts -/

/-- Settles O42: the boundary looks at `res_pending` first, and the reset step is the state of the statement. -/
theorem pendingResetRunsResetSequence : Obligations.PendingResetRunsResetSequence := fun _ => step_of_resPending

/-- Settles O44: the boundary looks at `halted` next. -/
theorem haltedStepChangesNothing : Obligations.HaltedStepChangesNothing := fun _ hres hhalt =>
  step_of_halted (boundary_halted_iff.mpr ⟨hres, hhalt⟩)

/-- Settles O45: the service sequence of NMI from the state with the latch cleared. -/
theorem pendingNmiIsServiced : Obligations.PendingNmiIsServiced := by
  intro s hres hhalt hnmi
  have hstep := step_of_nmi (boundary_nmi_iff.mpr ⟨hres, hhalt, hnmi⟩)
  have hserviced := serviced_service s.pc .nmi { s with nmiPending := false, busLog := [] }
  exact ⟨_, hstep, rfl, hserviced.setCycles Config.intCycles⟩

/-- Settles O46: the service sequence of IRQ from the state as it is. -/
theorem unmaskedIrqIsServiced : Obligations.UnmaskedIrqIsServiced := by
  intro s hres hhalt hnmi hirq hi
  have hstep := step_of_irq (boundary_irq_iff.mpr ⟨hres, hhalt, hnmi, hirq, hi⟩)
  have hserviced := serviced_service s.pc .irq { s with busLog := [] }
  exact ⟨_, hstep, rfl, hserviced.setCycles Config.intCycles⟩

/-! ### The fetch -/

/-- An access does not look at PC. -/
theorem accessed_setPc (s : State) (w : Word) (e : BusAccess) : accessed (s.setPc w) e = (accessed s e).setPc w := by
  cases e with
  | read a v => simp only [accessed_read]; rfl
  | write a v => simp only [← memWrite_eq_accessed]; rfl

theorem busAfter_setPc (s : State) (w : Word) (es : List BusAccess) :
    busAfter (s.setPc w) es = (busAfter s es).setPc w :=
  List.foldl_hom (fun t : State => t.setPc w) (fun t e => accessed_setPc t w e)

theorem fetchByte_eq_accessed (s : State) :
    s.fetchByte = (s.peek s.pc, (accessed s (.read s.pc (s.peek s.pc))).setPc (s.pc + 1)) := by
  rw [State.fetchByte_eq, memRead_eq_accessed]

theorem fetchReads_zero (s : State) : fetchReads s 0 = [] := rfl

/-- R47: the byte at PC is read first, then those from the next address on. -/
theorem fetchReads_succ (s : State) (n : Nat) :
    fetchReads s (n + 1) = .read s.pc s.fetchByte.1 :: fetchReads s.fetchByte.2 n := by
  have hbus : SameBus s.fetchByte.2 (accessed s (.read s.pc (s.peek s.pc))) := by
    rw [fetchByte_eq_accessed]
    exact ⟨rfl, rfl, rfl, rfl, rfl⟩
  have haddr (k : Nat) : s.pc + BitVec.ofNat 16 (k + 1) = s.fetchByte.2.pc + BitVec.ofNat 16 k := by
    rw [Nat.add_comm, BitVec.ofNat_add, ← BitVec.add_assoc]
    rfl
  rw [fetchReads, fetchReads, hbus.readsOf_eq, List.range_succ_eq_map, List.map_cons, List.map_map, BitVec.add_zero,
    readsOf]
  simp only [Function.comp_def, haddr]
  rfl

/-- The state after fetching `n` bytes. -/
def fetched (s : State) : Nat → State
  | 0 => s
  | n + 1 => fetched s.fetchByte.2 n

/-- R47, R67: fetching is the reads of the statement, and PC goes past the bytes. -/
theorem fetched_eq_busAfter (s : State) (n : Nat) :
    fetched s n = (busAfter s (fetchReads s n)).setPc (s.pc + BitVec.ofNat 16 n) := by
  induction n generalizing s with
  | zero => rw [BitVec.add_zero]; rfl
  | succ n ih =>
    have hpc : s.fetchByte.2.pc + BitVec.ofNat 16 n = s.pc + BitVec.ofNat 16 (n + 1) := by
      rw [Nat.add_comm n, BitVec.ofNat_add, ← BitVec.add_assoc]
      rfl
    rw [fetched, ih, hpc, fetchReads_succ, busAfter_cons, fetchByte_eq_accessed, busAfter_setPc]
    rfl

/-- The bytes at PC, one fetched after another. -/
theorem streamBytes_eq (s : State) :
    streamBytes s = [s.fetchByte.1, (fetched s 1).fetchByte.1, (fetched s 2).fetchByte.1] := by
  simp only [streamBytes, fetchReads_succ, fetchReads_zero, List.map_cons, List.map_nil, byteOf]
  rfl

theorem length_encode_instr {b : Byte} {l : Layout} (h : layoutOf b = l) (v : Byte) (w : Word) :
    (encode (l.instr v w)).length = (l.operandBytes v w).length + 1 := by
  rw [← h, encode_instr_layoutOf, List.length_cons]

/-- R67: the decoder's answer on the stream is the instruction fetched, and exactly its bytes are fetched. -/
theorem fetchDecode_of_decode (h : decode (streamBytes s) = .ok (i, rest)) :
    s.fetchDecode = (i, fetched s (encode i).length) := by
  rw [streamBytes_eq] at h
  rw [State.fetchDecode]
  cases hl : layoutOf s.fetchByte.1 with
  | bare j =>
    cases (decode_bare hl _).symm.trans h
    have hlength : (encode i).length = 1 := length_encode_instr hl 0 0
    rw [hlength]
    rfl
  | byteArg f =>
    cases (decode_byteArg hl _ _).symm.trans h
    have hlength : (encode (f (fetched s 1).fetchByte.1)).length = 2 := length_encode_instr hl _ 0
    rw [hlength]
    rfl
  | wordArg g =>
    cases (decode_wordArg hl _ _ _).symm.trans h
    have hlength : (encode (g (joinBytes (fetched s 2).fetchByte.1 (fetched s 1).fetchByte.1))).length = 3 :=
      length_encode_instr hl 0 _
    rw [hlength]
    rfl

/-- Settles O47: the fetch does not look at the outputs of the step before, so the stream is the one at its beginning. -/
theorem stepRunsDecodedInstruction : Obligations.StepRunsDecodedInstruction := by
  intro s i rest hres hhalt hnmi hirq hdecode
  have hbus : SameBus s s.beginStep := ⟨rfl, rfl, rfl, rfl, rfl⟩
  have hstream : streamBytes s = streamBytes s.beginStep := congrArg (List.map byteOf) (hbus.readsOf_eq _)
  rw [hstream] at hdecode
  rw [step_of_fetch (boundary_fetch_iff.mpr ⟨hres, hhalt, hnmi, hirq⟩), fetchDecode_of_decode hdecode, fetched_eq_busAfter]
  rfl

end Sys2Proof.Safety
end

section
/-! SUPPORT. The level of the IRQ line (spec/10_state.md R31, spec/60_exceptions.md R233): past the boundary no operation of
the machine reads it, so from a state with another level it does the same but for the line itself. One lemma per operand
form, one for the instructions, one for the step. -/

namespace Sys2Proof.Safety

open Sys2Proof.Machine

variable (level : Bool) (s : State)

/-! ### The instruction stream -/

theorem fetchByte_setIrqLine :
    ∃ after, (s.setIrqLine level).fetchByte = (s.fetchByte.1, s.fetchByte.2.setIrqLine after) := ⟨_, rfl⟩

theorem fetchDecode_setIrqLine :
    ∃ after, (s.setIrqLine level).fetchDecode = (s.fetchDecode.1, s.fetchDecode.2.setIrqLine after) := by
  obtain ⟨after, hfirst⟩ := fetchByte_setIrqLine level s
  obtain ⟨after', hsecond⟩ := fetchByte_setIrqLine after s.fetchByte.2
  obtain ⟨after'', hthird⟩ := fetchByte_setIrqLine after' s.fetchByte.2.fetchByte.2
  simp only [State.fetchDecode, hfirst, hsecond, hthird]
  split <;> exact ⟨_, rfl⟩

/-! ### The operand forms -/

theorem resolve_setIrqLine (m : AddrForm) :
    ∃ after, resolve m (s.setIrqLine level) = { resolve m s with st := (resolve m s).st.setIrqLine after } := by
  cases m <;> exact ⟨_, rfl⟩

theorem readMem_setIrqLine (m : AddrForm) :
    ∃ after, readMem m (s.setIrqLine level) = { readMem m s with st := (readMem m s).st.setIrqLine after } := by
  obtain ⟨after, hresolve⟩ := resolve_setIrqLine level s m
  simp only [readMem_eq, hresolve]
  exact ⟨_, rfl⟩

theorem readOperand_setIrqLine (f : ReadForm) :
    ∃ after, readOperand f (s.setIrqLine level) =
      { readOperand f s with st := (readOperand f s).st.setIrqLine after } := by
  cases f with
  | imm w => exact ⟨_, rfl⟩
  | mem m => exact readMem_setIrqLine level s m

theorem modifyOperand_setIrqLine (f : RmwForm) (g : Byte → Byte) :
    ∃ after, modifyOperand f g (s.setIrqLine level) =
      { modifyOperand f g s with st := (modifyOperand f g s).st.setIrqLine after } := by
  cases f with
  | acc => exact ⟨_, rfl⟩
  | mem m =>
    obtain ⟨after, hresolve⟩ := resolve_setIrqLine level s m
    simp only [modifyOperand_mem, hresolve]
    exact ⟨_, rfl⟩

/-! ### Instructions -/

theorem storeRegister_setIrqLine (i : Instr) (m : AddrForm) (v : Byte) :
    ∃ after, storeRegister i m v (s.setIrqLine level) = onNext (fun t => t.setIrqLine after) (storeRegister i m v s) := by
  obtain ⟨after, hresolve⟩ := resolve_setIrqLine level s m
  simp only [storeRegister, storeOperand, hresolve]
  exact ⟨_, rfl⟩

theorem shiftOperand_setIrqLine (i : Instr) (f : RmwForm) (alu : Byte → Bool → ShiftResult) :
    ∃ after, shiftOperand i f alu (s.setIrqLine level) =
      onNext (fun t => t.setIrqLine after) (shiftOperand i f alu s) := by
  obtain ⟨after, hmodify⟩ := modifyOperand_setIrqLine level s f (fun v => (alu v s.flags.c).r)
  simp only [shiftOperand, State.setIrqLine_flags, hmodify]
  exact ⟨after, rfl⟩

theorem stepMemory_setIrqLine (i : Instr) (m : AddrForm) (g : Byte → Byte) :
    ∃ after, stepMemory i m g (s.setIrqLine level) = onNext (fun t => t.setIrqLine after) (stepMemory i m g s) := by
  obtain ⟨after, hmodify⟩ := modifyOperand_setIrqLine level s (.mem m) g
  simp only [stepMemory, hmodify]
  exact ⟨after, rfl⟩

theorem exec_setIrqLine (i : Instr) :
    ∃ after, exec i (s.setIrqLine level) = onNext (fun t => t.setIrqLine after) (exec i s) := by
  cases i with
  | lda o | ldx o | ldy o | adc o | sbc o | and o | ora o | eor o | cmp o | cpx o | cpy o =>
    obtain ⟨after, hread⟩ := readOperand_setIrqLine level s o.toRead
    simp only [exec, execLda, execLdx, execLdy, loadRegister, execAdc, execSbc, addToA, execAnd, execOra, execEor,
      combineA, execCmp, execCpx, execCpy, compareWith, hread]
    exact ⟨after, rfl⟩
  | sta o | stx o | sty o => exact storeRegister_setIrqLine level s _ o.toAddr _
  | bit o =>
    obtain ⟨after, hread⟩ := readMem_setIrqLine level s o.toAddr
    simp only [exec, execBit, hread]
    exact ⟨after, rfl⟩
  | asl o | lsr o | rol o | ror o => exact shiftOperand_setIrqLine level s _ o.toRmw _
  | inc o | dec o => exact stepMemory_setIrqLine level s _ o.toAddr _
  | jmp o => cases o <;> exact ⟨_, rfl⟩
  | bpl d | bmi d | bvc d | bvs d | bcc d | bcs d | bne d | beq d | jsr w | rts | pha | pla | php | plp | tsx | txs | clc
  | sec | cli | sei | cld | sed | clv | nop | brk | ill b | inx | iny | dex | dey | tax | tay | txa | tya | rti =>
    exact ⟨_, rfl⟩

/-! ### The step -/

/-- R236: with I set the line decides no case. -/
theorem boundary_setIrqLine (h : s.flags.i = true) : (s.setIrqLine level).boundary = s.boundary := by
  simp [State.boundary, h]

theorem step_setIrqLine (h : s.flags.i = true) :
    ∃ after, step (s.setIrqLine level) = onNext (fun t => t.setIrqLine after) (step s) := by
  have hb := boundary_setIrqLine level s h
  cases hs : s.boundary with
  | reset =>
    rw [step_of_reset hs, step_of_reset (hb.trans hs)]
    exact ⟨_, rfl⟩
  | halted =>
    rw [step_of_halted hs, step_of_halted (hb.trans hs)]
    exact ⟨_, rfl⟩
  | nmi =>
    rw [step_of_nmi hs, step_of_nmi (hb.trans hs)]
    exact ⟨_, rfl⟩
  | irq =>
    rw [step_of_irq hs, step_of_irq (hb.trans hs)]
    exact ⟨_, rfl⟩
  | fetch =>
    obtain ⟨after, hfetch⟩ := fetchDecode_setIrqLine level s.beginStep
    have hstart : (s.setIrqLine level).beginStep = s.beginStep.setIrqLine level := rfl
    rw [step_of_fetch hs, step_of_fetch (hb.trans hs), hstart, hfetch]
    exact exec_setIrqLine after _ _

/-- Settles O56: the line goes through the step unread; without devices no step writes it. -/
theorem maskedIrqLineIsUnseen : Obligations.MaskedIrqLineIsUnseen := by
  intro s t level hi h
  obtain ⟨after, hstep⟩ := step_setIrqLine level s hi
  rw [h] at hstep
  refine ⟨after, hstep, fun hwindows => ?_⟩
  obtain ⟨-, -, -, -, hquiet⟩ := pendingLatchesAcrossStep _ _ hstep
  exact (hquiet hwindows).1

end Sys2Proof.Safety
end
